-- ==== Sys2Proof/Word.lean ====
section
/-! DEFINITION. The machine's two word types (00_scope.md R5, R8): bytes and addresses. -/

namespace Sys2Proof

/-- `u8`: A, X, Y, SP, SR and bus data are 8 bits (R5, R8). -/
abbrev Byte := BitVec 8

/-- `u16`: PC, bus addresses and `addressAbs` are 16 bits (R5, R8). -/
abbrev Addr := BitVec 16

end Sys2Proof
end

