-- ==== Sys2Proof/Config.lean ====
section
/-! DEFINITION. What an implementation fixes (00_scope.md R5): the fixed addresses, the open parameters at the spec's
example values, and the one free value of the model. -/

namespace Sys2Proof

/-- RESET_LATENCY is 7 or 8 ticks (R5, D3, I6); which of the two is open. -/
inductive ResetLatency
  | seven
  | eight
deriving DecidableEq, Repr

namespace Config

/-- The low byte of RESET_VECTOR (R5, R160, D1). -/
def resetVectorLo : Addr := 0xFFFC#16
/-- The high byte of RESET_VECTOR (R5, R160, D1). -/
def resetVectorHi : Addr := 0xFFFD#16
/-- The low byte of BRK_VECTOR (R5, R136). -/
def brkVectorLo : Addr := 0xFFFE#16
/-- The high byte of BRK_VECTOR (R5, R136). -/
def brkVectorHi : Addr := 0xFFFF#16
/-- The bus holds this many bytes (R5, R36). -/
def memorySize : Nat := 65536

/-- What a byte of memory that nothing has written reads as: INIT_MEM (R41, D16), which the spec leaves open.
DESIGN CHOICE (log 1), unsafe: the spec's example value, zero everywhere. -/
def initByte : Byte := 0x00#8

/-- RESET_SP at `State.reset` (R35, D2). DESIGN CHOICE (log 2), unsafe: the spec's example value. -/
def resetSp : Byte := 0xFD#8

/-- RESET_LATENCY at `State.reset` (R35, D3). DESIGN CHOICE (log 3), unsafe: the spec's example value. -/
def resetLatency : ResetLatency := .eight

/-- The latched opcode at `State.reset`, which R35 calls unspecified (D23, I9). DESIGN CHOICE (log 4), unsafe by the
rule for reset values; the next dispatch overwrites it before anything reads it. -/
def resetOpcode : Byte := 0x00#8

/-- ILLEGAL_CYCLES(op) less one (R5, R169, D13, I4): a FREE VALUE for each opcode byte. The type keeps the one limit
the spec states, a count from 1 to 8; nothing else is known of it (log 5, safe). -/
opaque illegalCycles : Byte → Fin 8

end Config

/-- The number of ticks that a RESET_LATENCY stands for. -/
def ResetLatency.ticks : ResetLatency → Nat
  | .seven => 7
  | .eight => 8

end Sys2Proof
end

