-- ==== Sys2Proof/Syntax.lean ====
section
/-! DEFINITION. The abstract syntax: mnemonics, addressing modes, operand forms and instructions (30_encoding.md,
40_addressing.md). The 256 rows of `spec/opcode_table.json` are the pairs of a mnemonic and a mode that
`Instr.WellFormed` admits; `xxx` carries its opcode byte. -/

namespace Sys2Proof

/-- The 56 mnemonics and `XXX`, the handler of the illegal opcodes (R63, R64). -/
inductive Mnemonic
  | adc | and | ora | eor | sbc | cmp | cpx | cpy | bit
  | asl | lsr | rol | ror | inc | dec | inx | dex | iny | dey
  | lda | ldx | ldy | sta | stx | sty | tax | tay | txa | tya | tsx | txs
  | pha | php | pla | plp
  | bpl | bmi | bvc | bvs | bcc | bcs | bne | beq | jmp | jsr | rts | rti | brk
  | clc | sec | cli | sei | clv | cld | sed | nop | xxx
deriving DecidableEq, Repr

/-- The twelve addressing modes (R58, R64), by the tags of R64; accumulator addressing is `imp` (R71, D6). -/
inductive Mode
  | imp | imm | rel | zp0 | zpx | zpy | abs | abx | aby | ind | izx | izy
deriving DecidableEq, Repr

/-- An addressing mode with the operand bytes its layout carries (R58 to R62). -/
inductive Operand
  /-- IMPLIED, or the accumulator -/
  | imp
  /-- IMMEDIATE: the value `i` -/
  | imm (i : Byte)
  /-- RELATIVE: the signed displacement `r` -/
  | rel (r : Byte)
  /-- ZEROPAGE: the address `z` -/
  | zp0 (z : Byte)
  /-- ZEROPAGE,X -/
  | zpx (z : Byte)
  /-- ZEROPAGE,Y -/
  | zpy (z : Byte)
  /-- ABSOLUTE: the address with bytes `h` and `l` -/
  | abs (a : Addr)
  /-- ABSOLUTE,X -/
  | abx (a : Addr)
  /-- ABSOLUTE,Y -/
  | aby (a : Addr)
  /-- INDIRECT: the address of the pointer -/
  | ind (a : Addr)
  /-- (INDIRECT,X): the zero-page pointer base `p` -/
  | izx (p : Byte)
  /-- (INDIRECT),Y: the zero-page pointer `p` -/
  | izy (p : Byte)
deriving DecidableEq, Repr

/-- The mode of an operand form. -/
def Operand.mode : Operand → Mode
  | .imp => .imp
  | .imm _ => .imm
  | .rel _ => .rel
  | .zp0 _ => .zp0
  | .zpx _ => .zpx
  | .zpy _ => .zpy
  | .abs _ => .abs
  | .abx _ => .abx
  | .aby _ => .aby
  | .ind _ => .ind
  | .izx _ => .izx
  | .izy _ => .izy

/-- The instructions. A mnemonic with rows in several modes carries its operand form, a branch its displacement, `jsr`
its target, and `xxx` the illegal opcode byte itself. -/
inductive Instr
  /-- ADC: add with carry (R89) -/
  | adc (m : Operand)
  /-- AND: bitwise AND with A (R91) -/
  | and (m : Operand)
  /-- ORA: bitwise OR with A (R92) -/
  | ora (m : Operand)
  /-- EOR: bitwise exclusive OR with A (R93) -/
  | eor (m : Operand)
  /-- SBC: subtract with borrow (R90) -/
  | sbc (m : Operand)
  /-- CMP: compare A (R94) -/
  | cmp (m : Operand)
  /-- CPX: compare X (R95) -/
  | cpx (m : Operand)
  /-- CPY: compare Y (R96) -/
  | cpy (m : Operand)
  /-- BIT: test bits of memory against A (R97) -/
  | bit (m : Operand)
  /-- ASL: arithmetic shift left (R98) -/
  | asl (m : Operand)
  /-- LSR: logical shift right (R99) -/
  | lsr (m : Operand)
  /-- ROL: rotate left through carry (R100) -/
  | rol (m : Operand)
  /-- ROR: rotate right through carry (R101) -/
  | ror (m : Operand)
  /-- INC: increment memory (R102) -/
  | inc (m : Operand)
  /-- DEC: decrement memory (R103) -/
  | dec (m : Operand)
  /-- INX: increment X (R104) -/
  | inx
  /-- DEX: decrement X (R105) -/
  | dex
  /-- INY: increment Y (R106) -/
  | iny
  /-- DEY: decrement Y (R107) -/
  | dey
  /-- LDA: load A (R108) -/
  | lda (m : Operand)
  /-- LDX: load X (R109) -/
  | ldx (m : Operand)
  /-- LDY: load Y (R110) -/
  | ldy (m : Operand)
  /-- STA: store A (R111) -/
  | sta (m : Operand)
  /-- STX: store X (R112) -/
  | stx (m : Operand)
  /-- STY: store Y (R113) -/
  | sty (m : Operand)
  /-- TAX: transfer A to X (R114) -/
  | tax
  /-- TAY: transfer A to Y (R115) -/
  | tay
  /-- TXA: transfer X to A (R116) -/
  | txa
  /-- TYA: transfer Y to A (R117) -/
  | tya
  /-- TSX: transfer SP to X (R118) -/
  | tsx
  /-- TXS: transfer X to SP (R119) -/
  | txs
  /-- PHA: push A (R120) -/
  | pha
  /-- PHP: push SR (R121) -/
  | php
  /-- PLA: pull A (R122) -/
  | pla
  /-- PLP: pull SR (R123) -/
  | plp
  /-- BPL: branch if plus (R125) -/
  | bpl (r : Byte)
  /-- BMI: branch if minus (R126) -/
  | bmi (r : Byte)
  /-- BVC: branch if overflow clear (R127) -/
  | bvc (r : Byte)
  /-- BVS: branch if overflow set (R128) -/
  | bvs (r : Byte)
  /-- BCC: branch if carry clear (R129) -/
  | bcc (r : Byte)
  /-- BCS: branch if carry set (R130) -/
  | bcs (r : Byte)
  /-- BNE: branch if not equal (R131) -/
  | bne (r : Byte)
  /-- BEQ: branch if equal (R132) -/
  | beq (r : Byte)
  /-- JMP: jump (R133) -/
  | jmp (m : Operand)
  /-- JSR: jump to subroutine (R134) -/
  | jsr (a : Addr)
  /-- RTS: return from subroutine (R135) -/
  | rts
  /-- RTI: return from interrupt (R137) -/
  | rti
  /-- BRK: software interrupt (R136) -/
  | brk
  /-- CLC: clear carry (R138) -/
  | clc
  /-- SEC: set carry (R139) -/
  | sec
  /-- CLI: clear interrupt disable (R140) -/
  | cli
  /-- SEI: set interrupt disable (R141) -/
  | sei
  /-- CLV: clear overflow (R142) -/
  | clv
  /-- CLD: clear decimal (R143) -/
  | cld
  /-- SED: set decimal (R144) -/
  | sed
  /-- NOP: no operation (R145) -/
  | nop
  /-- XXX: an illegal opcode byte, a one-byte no-op (R146) -/
  | xxx (op : Byte)
deriving DecidableEq, Repr

/-- The mnemonic of an instruction. -/
def Instr.mnemonic : Instr → Mnemonic
  | .adc _ => .adc
  | .and _ => .and
  | .ora _ => .ora
  | .eor _ => .eor
  | .sbc _ => .sbc
  | .cmp _ => .cmp
  | .cpx _ => .cpx
  | .cpy _ => .cpy
  | .bit _ => .bit
  | .asl _ => .asl
  | .lsr _ => .lsr
  | .rol _ => .rol
  | .ror _ => .ror
  | .inc _ => .inc
  | .dec _ => .dec
  | .inx => .inx
  | .dex => .dex
  | .iny => .iny
  | .dey => .dey
  | .lda _ => .lda
  | .ldx _ => .ldx
  | .ldy _ => .ldy
  | .sta _ => .sta
  | .stx _ => .stx
  | .sty _ => .sty
  | .tax => .tax
  | .tay => .tay
  | .txa => .txa
  | .tya => .tya
  | .tsx => .tsx
  | .txs => .txs
  | .pha => .pha
  | .php => .php
  | .pla => .pla
  | .plp => .plp
  | .bpl _ => .bpl
  | .bmi _ => .bmi
  | .bvc _ => .bvc
  | .bvs _ => .bvs
  | .bcc _ => .bcc
  | .bcs _ => .bcs
  | .bne _ => .bne
  | .beq _ => .beq
  | .jmp _ => .jmp
  | .jsr _ => .jsr
  | .rts => .rts
  | .rti => .rti
  | .brk => .brk
  | .clc => .clc
  | .sec => .sec
  | .cli => .cli
  | .sei => .sei
  | .clv => .clv
  | .cld => .cld
  | .sed => .sed
  | .nop => .nop
  | .xxx _ => .xxx

/-- The operand form of an instruction. -/
def Instr.operand : Instr → Operand
  | .adc m => m
  | .and m => m
  | .ora m => m
  | .eor m => m
  | .sbc m => m
  | .cmp m => m
  | .cpx m => m
  | .cpy m => m
  | .bit m => m
  | .asl m => m
  | .lsr m => m
  | .rol m => m
  | .ror m => m
  | .inc m => m
  | .dec m => m
  | .inx => .imp
  | .dex => .imp
  | .iny => .imp
  | .dey => .imp
  | .lda m => m
  | .ldx m => m
  | .ldy m => m
  | .sta m => m
  | .stx m => m
  | .sty m => m
  | .tax => .imp
  | .tay => .imp
  | .txa => .imp
  | .tya => .imp
  | .tsx => .imp
  | .txs => .imp
  | .pha => .imp
  | .php => .imp
  | .pla => .imp
  | .plp => .imp
  | .bpl r => .rel r
  | .bmi r => .rel r
  | .bvc r => .rel r
  | .bvs r => .rel r
  | .bcc r => .rel r
  | .bcs r => .rel r
  | .bne r => .rel r
  | .beq r => .rel r
  | .jmp m => m
  | .jsr a => .abs a
  | .rts => .imp
  | .rti => .imp
  | .brk => .imp
  | .clc => .imp
  | .sec => .imp
  | .cli => .imp
  | .sei => .imp
  | .clv => .imp
  | .cld => .imp
  | .sed => .imp
  | .nop => .imp
  | .xxx _ => .imp

end Sys2Proof
end

