-- ==== Sys2Proof/WellFormed.lean ====
section
/-! DEFINITION. Which terms of `Instr` are instructions of the table: the mode is one of the modes that the
instruction's own rule lists (41_alu.md to 46_flags_nop.md), and the byte of `xxx` is one of the 105 illegal opcodes
(30_encoding.md R65). -/

namespace Sys2Proof

/-- The modes of a mnemonic, as the "Modes" line of its rule lists them (R89 to R146). -/
def Mnemonic.modes : Mnemonic → List Mode
  | .adc => [.imm, .zp0, .zpx, .abs, .abx, .aby, .izx, .izy]
  | .and => [.imm, .zp0, .zpx, .abs, .abx, .aby, .izx, .izy]
  | .ora => [.imm, .zp0, .zpx, .abs, .abx, .aby, .izx, .izy]
  | .eor => [.imm, .zp0, .zpx, .abs, .abx, .aby, .izx, .izy]
  | .sbc => [.imm, .zp0, .zpx, .abs, .abx, .aby, .izx, .izy]
  | .cmp => [.imm, .zp0, .zpx, .abs, .abx, .aby, .izx, .izy]
  | .cpx => [.imm, .zp0, .abs]
  | .cpy => [.imm, .zp0, .abs]
  | .bit => [.zp0, .abs]
  | .asl => [.imp, .zp0, .zpx, .abs, .abx]
  | .lsr => [.imp, .zp0, .zpx, .abs, .abx]
  | .rol => [.imp, .zp0, .zpx, .abs, .abx]
  | .ror => [.imp, .zp0, .zpx, .abs, .abx]
  | .inc => [.zp0, .zpx, .abs, .abx]
  | .dec => [.zp0, .zpx, .abs, .abx]
  | .inx => [.imp]
  | .dex => [.imp]
  | .iny => [.imp]
  | .dey => [.imp]
  | .lda => [.imm, .zp0, .zpx, .abs, .abx, .aby, .izx, .izy]
  | .ldx => [.imm, .zp0, .zpy, .abs, .aby]
  | .ldy => [.imm, .zp0, .zpx, .abs, .abx]
  | .sta => [.zp0, .zpx, .abs, .abx, .aby, .izx, .izy]
  | .stx => [.zp0, .zpy, .abs]
  | .sty => [.zp0, .zpx, .abs]
  | .tax => [.imp]
  | .tay => [.imp]
  | .txa => [.imp]
  | .tya => [.imp]
  | .tsx => [.imp]
  | .txs => [.imp]
  | .pha => [.imp]
  | .php => [.imp]
  | .pla => [.imp]
  | .plp => [.imp]
  | .bpl => [.rel]
  | .bmi => [.rel]
  | .bvc => [.rel]
  | .bvs => [.rel]
  | .bcc => [.rel]
  | .bcs => [.rel]
  | .bne => [.rel]
  | .beq => [.rel]
  | .jmp => [.abs, .ind]
  | .jsr => [.abs]
  | .rts => [.imp]
  | .rti => [.imp]
  | .brk => [.imp]
  | .clc => [.imp]
  | .sec => [.imp]
  | .cli => [.imp]
  | .sei => [.imp]
  | .clv => [.imp]
  | .cld => [.imp]
  | .sed => [.imp]
  | .nop => [.imp]
  | .xxx => [.imp]

/-- The 105 illegal opcode bytes, as R65 lists them. -/
def illegalOpcodes : List Byte :=
  [0x02, 0x03, 0x04, 0x07, 0x0B, 0x0C, 0x0F, 0x12, 0x13, 0x14, 0x17, 0x1A, 0x1B, 0x1C, 0x1F] ++
  [0x22, 0x23, 0x27, 0x2B, 0x2F, 0x32, 0x33, 0x34, 0x37, 0x3A, 0x3B, 0x3C, 0x3F, 0x42, 0x43] ++
  [0x44, 0x47, 0x4B, 0x4F, 0x52, 0x53, 0x54, 0x57, 0x5A, 0x5B, 0x5C, 0x5F, 0x62, 0x63, 0x64] ++
  [0x67, 0x6B, 0x6F, 0x72, 0x73, 0x74, 0x77, 0x7A, 0x7B, 0x7C, 0x7F, 0x80, 0x82, 0x83, 0x87] ++
  [0x89, 0x8B, 0x8F, 0x92, 0x93, 0x97, 0x9B, 0x9C, 0x9E, 0x9F, 0xA3, 0xA7, 0xAB, 0xAF, 0xB2] ++
  [0xB3, 0xB7, 0xBB, 0xBF, 0xC2, 0xC3, 0xC7, 0xCB, 0xCF, 0xD2, 0xD3, 0xD4, 0xD7, 0xDA, 0xDB] ++
  [0xDC, 0xDF, 0xE2, 0xE3, 0xE7, 0xEB, 0xEF, 0xF2, 0xF3, 0xF4, 0xF7, 0xFA, 0xFB, 0xFC, 0xFF]

/-- The check: the mode is one the mnemonic has, and `xxx` carries an illegal opcode byte. -/
def Instr.wellFormed (i : Instr) : Bool :=
  i.mnemonic.modes.contains i.operand.mode &&
    match i with
    | .xxx op => illegalOpcodes.contains op
    | _ => true

/-- `i` is a row of the opcode table with operand bytes (R63 to R66: every value of the operand bytes is legal). -/
abbrev Instr.WellFormed (i : Instr) : Prop := i.wellFormed = true

end Sys2Proof
end

