-- ==== Sys2Proof/Decode.lean ====
section
/-! DEFINITION. Decoding and encoding (30_encoding.md R57 to R67). The decoder reads the 256-entry grid of R64; the
encoder reads R64's second listing, by mnemonic. -/

namespace Sys2Proof

/-- `{hi, lo}`: two bytes as a 16-bit word, `(hi << 8) | lo` (R8). -/
def word (hi lo : Byte) : Addr := (hi.setWidth 16 <<< 8) ||| lo.setWidth 16

/-- Bits 7 to 0 of a 16-bit word (R8). -/
def loByte (w : Addr) : Byte := w.extractLsb' 0 8

/-- Bits 15 to 8 of a 16-bit word (R8); the page of an address (R12). -/
def hiByte (w : Addr) : Byte := w.extractLsb' 8 8

/-! ### The decoder -/

/-- One row of the grid of R64: the sixteen entries of one high nibble. -/
abbrev GridRow := List (Mnemonic × Mode)

/-- An entry that R64 marks `---`: `(XXX, IMPLIED)` (R65). -/
def illegalEntry : Mnemonic × Mode := (.xxx, .imp)

/-- Row 0x of R64. -/
def gridRow0 : GridRow :=
  [(.brk, .imp), (.ora, .izx), illegalEntry, illegalEntry, illegalEntry, (.ora, .zp0),
   (.asl, .zp0), illegalEntry, (.php, .imp), (.ora, .imm), (.asl, .imp), illegalEntry,
   illegalEntry, (.ora, .abs), (.asl, .abs), illegalEntry]

/-- Row 1x of R64. -/
def gridRow1 : GridRow :=
  [(.bpl, .rel), (.ora, .izy), illegalEntry, illegalEntry, illegalEntry, (.ora, .zpx),
   (.asl, .zpx), illegalEntry, (.clc, .imp), (.ora, .aby), illegalEntry, illegalEntry,
   illegalEntry, (.ora, .abx), (.asl, .abx), illegalEntry]

/-- Row 2x of R64. -/
def gridRow2 : GridRow :=
  [(.jsr, .abs), (.and, .izx), illegalEntry, illegalEntry, (.bit, .zp0), (.and, .zp0),
   (.rol, .zp0), illegalEntry, (.plp, .imp), (.and, .imm), (.rol, .imp), illegalEntry,
   (.bit, .abs), (.and, .abs), (.rol, .abs), illegalEntry]

/-- Row 3x of R64. -/
def gridRow3 : GridRow :=
  [(.bmi, .rel), (.and, .izy), illegalEntry, illegalEntry, illegalEntry, (.and, .zpx),
   (.rol, .zpx), illegalEntry, (.sec, .imp), (.and, .aby), illegalEntry, illegalEntry,
   illegalEntry, (.and, .abx), (.rol, .abx), illegalEntry]

/-- Row 4x of R64. -/
def gridRow4 : GridRow :=
  [(.rti, .imp), (.eor, .izx), illegalEntry, illegalEntry, illegalEntry, (.eor, .zp0),
   (.lsr, .zp0), illegalEntry, (.pha, .imp), (.eor, .imm), (.lsr, .imp), illegalEntry,
   (.jmp, .abs), (.eor, .abs), (.lsr, .abs), illegalEntry]

/-- Row 5x of R64. -/
def gridRow5 : GridRow :=
  [(.bvc, .rel), (.eor, .izy), illegalEntry, illegalEntry, illegalEntry, (.eor, .zpx),
   (.lsr, .zpx), illegalEntry, (.cli, .imp), (.eor, .aby), illegalEntry, illegalEntry,
   illegalEntry, (.eor, .abx), (.lsr, .abx), illegalEntry]

/-- Row 6x of R64. -/
def gridRow6 : GridRow :=
  [(.rts, .imp), (.adc, .izx), illegalEntry, illegalEntry, illegalEntry, (.adc, .zp0),
   (.ror, .zp0), illegalEntry, (.pla, .imp), (.adc, .imm), (.ror, .imp), illegalEntry,
   (.jmp, .ind), (.adc, .abs), (.ror, .abs), illegalEntry]

/-- Row 7x of R64. -/
def gridRow7 : GridRow :=
  [(.bvs, .rel), (.adc, .izy), illegalEntry, illegalEntry, illegalEntry, (.adc, .zpx),
   (.ror, .zpx), illegalEntry, (.sei, .imp), (.adc, .aby), illegalEntry, illegalEntry,
   illegalEntry, (.adc, .abx), (.ror, .abx), illegalEntry]

/-- Row 8x of R64. -/
def gridRow8 : GridRow :=
  [illegalEntry, (.sta, .izx), illegalEntry, illegalEntry, (.sty, .zp0), (.sta, .zp0),
   (.stx, .zp0), illegalEntry, (.dey, .imp), illegalEntry, (.txa, .imp), illegalEntry,
   (.sty, .abs), (.sta, .abs), (.stx, .abs), illegalEntry]

/-- Row 9x of R64. -/
def gridRow9 : GridRow :=
  [(.bcc, .rel), (.sta, .izy), illegalEntry, illegalEntry, (.sty, .zpx), (.sta, .zpx),
   (.stx, .zpy), illegalEntry, (.tya, .imp), (.sta, .aby), (.txs, .imp), illegalEntry,
   illegalEntry, (.sta, .abx), illegalEntry, illegalEntry]

/-- Row Ax of R64. -/
def gridRowA : GridRow :=
  [(.ldy, .imm), (.lda, .izx), (.ldx, .imm), illegalEntry, (.ldy, .zp0), (.lda, .zp0),
   (.ldx, .zp0), illegalEntry, (.tay, .imp), (.lda, .imm), (.tax, .imp), illegalEntry,
   (.ldy, .abs), (.lda, .abs), (.ldx, .abs), illegalEntry]

/-- Row Bx of R64. -/
def gridRowB : GridRow :=
  [(.bcs, .rel), (.lda, .izy), illegalEntry, illegalEntry, (.ldy, .zpx), (.lda, .zpx),
   (.ldx, .zpy), illegalEntry, (.clv, .imp), (.lda, .aby), (.tsx, .imp), illegalEntry,
   (.ldy, .abx), (.lda, .abx), (.ldx, .aby), illegalEntry]

/-- Row Cx of R64. -/
def gridRowC : GridRow :=
  [(.cpy, .imm), (.cmp, .izx), illegalEntry, illegalEntry, (.cpy, .zp0), (.cmp, .zp0),
   (.dec, .zp0), illegalEntry, (.iny, .imp), (.cmp, .imm), (.dex, .imp), illegalEntry,
   (.cpy, .abs), (.cmp, .abs), (.dec, .abs), illegalEntry]

/-- Row Dx of R64. -/
def gridRowD : GridRow :=
  [(.bne, .rel), (.cmp, .izy), illegalEntry, illegalEntry, illegalEntry, (.cmp, .zpx),
   (.dec, .zpx), illegalEntry, (.cld, .imp), (.cmp, .aby), illegalEntry, illegalEntry,
   illegalEntry, (.cmp, .abx), (.dec, .abx), illegalEntry]

/-- Row Ex of R64. -/
def gridRowE : GridRow :=
  [(.cpx, .imm), (.sbc, .izx), illegalEntry, illegalEntry, (.cpx, .zp0), (.sbc, .zp0),
   (.inc, .zp0), illegalEntry, (.inx, .imp), (.sbc, .imm), (.nop, .imp), illegalEntry,
   (.cpx, .abs), (.sbc, .abs), (.inc, .abs), illegalEntry]

/-- Row Fx of R64. -/
def gridRowF : GridRow :=
  [(.beq, .rel), (.sbc, .izy), illegalEntry, illegalEntry, illegalEntry, (.sbc, .zpx),
   (.inc, .zpx), illegalEntry, (.sed, .imp), (.sbc, .aby), illegalEntry, illegalEntry,
   illegalEntry, (.sbc, .abx), (.inc, .abx), illegalEntry]

/-- The opcode map, row = high nibble (R64). -/
def opcodeGrid : List GridRow :=
  [gridRow0, gridRow1, gridRow2, gridRow3, gridRow4, gridRow5, gridRow6, gridRow7] ++
  [gridRow8, gridRow9, gridRowA, gridRowB, gridRowC, gridRowD, gridRowE, gridRowF]

/-- OPTABLE: the mnemonic and mode of an opcode byte, a total function of the byte alone (R63, R67). -/
def opTable (op : Byte) : Mnemonic × Mode :=
  (opcodeGrid.getD (op.toNat / 16) []).getD (op.toNat % 16) illegalEntry

/-- The number of operand bytes that a mode consumes (R57, R58). -/
def Mode.operandBytes : Mode → Nat
  | .imp => 0
  | .imm | .rel | .zp0 | .zpx | .zpy | .izx | .izy => 1
  | .abs | .abx | .aby | .ind => 2

/-- The operand form that a mode reads from the bytes after the opcode, low byte first (R58 to R62). A byte that the
mode does not consume is not looked at. -/
def Mode.operand (m : Mode) (b1 b2 : Byte) : Operand :=
  match m with
  | .imp => .imp
  | .imm => .imm b1
  | .rel => .rel b1
  | .zp0 => .zp0 b1
  | .zpx => .zpx b1
  | .zpy => .zpy b1
  | .abs => .abs (word b2 b1)
  | .abx => .abx (word b2 b1)
  | .aby => .aby (word b2 b1)
  | .ind => .ind (word b2 b1)
  | .izx => .izx b1
  | .izy => .izy b1

/-- The instruction of a table entry and the bytes it stands in. -/
def assemble (n : Mnemonic) (m : Mode) (op b1 b2 : Byte) : Instr :=
  match n with
  | .adc => .adc (m.operand b1 b2)
  | .and => .and (m.operand b1 b2)
  | .ora => .ora (m.operand b1 b2)
  | .eor => .eor (m.operand b1 b2)
  | .sbc => .sbc (m.operand b1 b2)
  | .cmp => .cmp (m.operand b1 b2)
  | .cpx => .cpx (m.operand b1 b2)
  | .cpy => .cpy (m.operand b1 b2)
  | .bit => .bit (m.operand b1 b2)
  | .asl => .asl (m.operand b1 b2)
  | .lsr => .lsr (m.operand b1 b2)
  | .rol => .rol (m.operand b1 b2)
  | .ror => .ror (m.operand b1 b2)
  | .inc => .inc (m.operand b1 b2)
  | .dec => .dec (m.operand b1 b2)
  | .inx => .inx
  | .dex => .dex
  | .iny => .iny
  | .dey => .dey
  | .lda => .lda (m.operand b1 b2)
  | .ldx => .ldx (m.operand b1 b2)
  | .ldy => .ldy (m.operand b1 b2)
  | .sta => .sta (m.operand b1 b2)
  | .stx => .stx (m.operand b1 b2)
  | .sty => .sty (m.operand b1 b2)
  | .tax => .tax
  | .tay => .tay
  | .txa => .txa
  | .tya => .tya
  | .tsx => .tsx
  | .txs => .txs
  | .pha => .pha
  | .php => .php
  | .pla => .pla
  | .plp => .plp
  | .bpl => .bpl b1
  | .bmi => .bmi b1
  | .bvc => .bvc b1
  | .bvs => .bvs b1
  | .bcc => .bcc b1
  | .bcs => .bcs b1
  | .bne => .bne b1
  | .beq => .beq b1
  | .jmp => .jmp (m.operand b1 b2)
  | .jsr => .jsr (word b2 b1)
  | .rts => .rts
  | .rti => .rti
  | .brk => .brk
  | .clc => .clc
  | .sec => .sec
  | .cli => .cli
  | .sei => .sei
  | .clv => .clv
  | .cld => .cld
  | .sed => .sed
  | .nop => .nop
  | .xxx => .xxx op

/-- Decoding of the three bytes at an instruction's address: total, since every opcode byte is an instruction (R66). -/
def decodeBytes (op b1 b2 : Byte) : Instr :=
  assemble (opTable op).1 (opTable op).2 op b1 b2

/-- Why a list of bytes is no instruction. No byte is at fault (R66): bytes can only be missing. -/
inductive DecodeError
  /-- there is no opcode byte -/
  | noOpcode
  /-- the opcode's mode consumes more bytes than are left -/
  | missingOperand (op : Byte)
deriving DecidableEq, Repr

/-- Decoding of a list of bytes: the first instruction and the bytes after it (R57). -/
def decode : List Byte → Except DecodeError (Instr × List Byte)
  | [] => .error .noOpcode
  | op :: rest =>
    match (opTable op).2.operandBytes, rest with
    | 0, rest => .ok (decodeBytes op 0 0, rest)
    | 1, b1 :: rest => .ok (decodeBytes op b1 0, rest)
    | 2, b1 :: b2 :: rest => .ok (decodeBytes op b1 b2, rest)
    | _, _ => .error (.missingOperand op)

/-- Byte `k` of an instruction whose bits are `w`, byte 0 the least significant (R58). -/
def tableByte (nbits w k : Nat) : Byte := BitVec.ofNat 8 (w % 2 ^ nbits / 256 ^ k)

/-- The instruction that the decoder reads from an instruction whose bits are `w`, numbered as the opcode table
numbers them (R58); the bits above `nbits` are zero. -/
def decodeTableWord (nbits w : Nat) : Option Instr :=
  match decode [tableByte nbits w 0, tableByte nbits w 1, tableByte nbits w 2] with
  | .ok (i, _) => some i
  | .error _ => none

/-! ### The encoder -/

/-- The modes and opcode bytes of a mnemonic, as R64 lists them by mnemonic. `XXX` has no line there (R65). -/
def Mnemonic.opcodes : Mnemonic → List (Mode × Byte)
  | .adc =>
    [(.izx, 0x61), (.zp0, 0x65), (.imm, 0x69), (.abs, 0x6D), (.izy, 0x71), (.zpx, 0x75),
     (.aby, 0x79), (.abx, 0x7D)]
  | .and =>
    [(.izx, 0x21), (.zp0, 0x25), (.imm, 0x29), (.abs, 0x2D), (.izy, 0x31), (.zpx, 0x35),
     (.aby, 0x39), (.abx, 0x3D)]
  | .ora =>
    [(.izx, 0x01), (.zp0, 0x05), (.imm, 0x09), (.abs, 0x0D), (.izy, 0x11), (.zpx, 0x15),
     (.aby, 0x19), (.abx, 0x1D)]
  | .eor =>
    [(.izx, 0x41), (.zp0, 0x45), (.imm, 0x49), (.abs, 0x4D), (.izy, 0x51), (.zpx, 0x55),
     (.aby, 0x59), (.abx, 0x5D)]
  | .sbc =>
    [(.izx, 0xE1), (.zp0, 0xE5), (.imm, 0xE9), (.abs, 0xED), (.izy, 0xF1), (.zpx, 0xF5),
     (.aby, 0xF9), (.abx, 0xFD)]
  | .cmp =>
    [(.izx, 0xC1), (.zp0, 0xC5), (.imm, 0xC9), (.abs, 0xCD), (.izy, 0xD1), (.zpx, 0xD5),
     (.aby, 0xD9), (.abx, 0xDD)]
  | .cpx => [(.imm, 0xE0), (.zp0, 0xE4), (.abs, 0xEC)]
  | .cpy => [(.imm, 0xC0), (.zp0, 0xC4), (.abs, 0xCC)]
  | .bit => [(.zp0, 0x24), (.abs, 0x2C)]
  | .asl => [(.zp0, 0x06), (.imp, 0x0A), (.abs, 0x0E), (.zpx, 0x16), (.abx, 0x1E)]
  | .lsr => [(.zp0, 0x46), (.imp, 0x4A), (.abs, 0x4E), (.zpx, 0x56), (.abx, 0x5E)]
  | .rol => [(.zp0, 0x26), (.imp, 0x2A), (.abs, 0x2E), (.zpx, 0x36), (.abx, 0x3E)]
  | .ror => [(.zp0, 0x66), (.imp, 0x6A), (.abs, 0x6E), (.zpx, 0x76), (.abx, 0x7E)]
  | .inc => [(.zp0, 0xE6), (.abs, 0xEE), (.zpx, 0xF6), (.abx, 0xFE)]
  | .dec => [(.zp0, 0xC6), (.abs, 0xCE), (.zpx, 0xD6), (.abx, 0xDE)]
  | .inx => [(.imp, 0xE8)]
  | .dex => [(.imp, 0xCA)]
  | .iny => [(.imp, 0xC8)]
  | .dey => [(.imp, 0x88)]
  | .lda =>
    [(.izx, 0xA1), (.zp0, 0xA5), (.imm, 0xA9), (.abs, 0xAD), (.izy, 0xB1), (.zpx, 0xB5),
     (.aby, 0xB9), (.abx, 0xBD)]
  | .ldx => [(.imm, 0xA2), (.zp0, 0xA6), (.abs, 0xAE), (.zpy, 0xB6), (.aby, 0xBE)]
  | .ldy => [(.imm, 0xA0), (.zp0, 0xA4), (.abs, 0xAC), (.zpx, 0xB4), (.abx, 0xBC)]
  | .sta =>
    [(.izx, 0x81), (.zp0, 0x85), (.abs, 0x8D), (.izy, 0x91), (.zpx, 0x95), (.aby, 0x99),
     (.abx, 0x9D)]
  | .stx => [(.zp0, 0x86), (.abs, 0x8E), (.zpy, 0x96)]
  | .sty => [(.zp0, 0x84), (.abs, 0x8C), (.zpx, 0x94)]
  | .tax => [(.imp, 0xAA)]
  | .tay => [(.imp, 0xA8)]
  | .txa => [(.imp, 0x8A)]
  | .tya => [(.imp, 0x98)]
  | .tsx => [(.imp, 0xBA)]
  | .txs => [(.imp, 0x9A)]
  | .pha => [(.imp, 0x48)]
  | .php => [(.imp, 0x08)]
  | .pla => [(.imp, 0x68)]
  | .plp => [(.imp, 0x28)]
  | .bpl => [(.rel, 0x10)]
  | .bmi => [(.rel, 0x30)]
  | .bvc => [(.rel, 0x50)]
  | .bvs => [(.rel, 0x70)]
  | .bcc => [(.rel, 0x90)]
  | .bcs => [(.rel, 0xB0)]
  | .bne => [(.rel, 0xD0)]
  | .beq => [(.rel, 0xF0)]
  | .jmp => [(.abs, 0x4C), (.ind, 0x6C)]
  | .jsr => [(.abs, 0x20)]
  | .rts => [(.imp, 0x60)]
  | .rti => [(.imp, 0x40)]
  | .brk => [(.imp, 0x00)]
  | .clc => [(.imp, 0x18)]
  | .sec => [(.imp, 0x38)]
  | .cli => [(.imp, 0x58)]
  | .sei => [(.imp, 0x78)]
  | .clv => [(.imp, 0xB8)]
  | .cld => [(.imp, 0xD8)]
  | .sed => [(.imp, 0xF8)]
  | .nop => [(.imp, 0xEA)]
  | .xxx => []

/-- The opcode byte of an instruction: `none` for a term that is no row of the table. -/
def Instr.opcodeByte : Instr → Option Byte
  | .xxx op => if illegalOpcodes.contains op then some op else none
  | i => i.mnemonic.opcodes.lookup i.operand.mode

/-- The operand bytes of an operand form, in memory order (R58 to R62). -/
def Operand.bytes : Operand → List Byte
  | .imp => []
  | .imm b | .rel b | .zp0 b | .zpx b | .zpy b | .izx b | .izy b => [b]
  | .abs a | .abx a | .aby a | .ind a => [loByte a, hiByte a]

/-- The bytes of a well-formed instruction in memory order (R57, R58); `none` for an ill-formed term. -/
def encode (i : Instr) : Option (List Byte) :=
  match i.opcodeByte with
  | some op => some (op :: i.operand.bytes)
  | none => none

/-- The length of an instruction in bytes (R57). -/
def Instr.length (i : Instr) : Nat := 1 + i.operand.mode.operandBytes

end Sys2Proof
end

