-- ==== Sys2Proof/Machine/State.lean ====
section
/-! DEFINITION. The machine's state (10_state.md R13 to R35, 20_memory.md R36, R41) as plain data, its outcomes' reasons,
and the state after reset. -/

namespace Sys2Proof.Machine

/-- The bus contents (R36): (address, byte) pairs, addresses strictly rising, none outside the address space, and none
holding the byte an unlisted address reads as. Ops.lean has the form's predicate, `Memory.wf`. -/
abbrev Memory := List Host.Cell

/-- Everything the spec gives the core (R13, R31, R32), and the bus (R36). -/
structure State where
  /-- accumulator A (R15) -/
  a : Byte
  /-- index register X (R16) -/
  x : Byte
  /-- index register Y (R17) -/
  y : Byte
  /-- stack pointer SP, an offset into page 1 (R20) -/
  sp : Byte
  /-- status register SR: bits 7 to 0 are N V U B D I Z C (R21) -/
  sr : Byte
  /-- program counter PC (R18) -/
  pc : Addr
  /-- scratch: the resolved effective address (R31) -/
  addressAbs : Addr
  /-- scratch: the sign-extended branch displacement (R31) -/
  addressRel : Addr
  /-- scratch: the most recently read operand (R31) -/
  fetched : Byte
  /-- the latched opcode byte (R32) -/
  opcode : Byte
  /-- ticks left before the next dispatch (R32): Idle at 0, Busy above it (R33) -/
  cycles : Nat
  /-- the bus contents (R36) -/
  mem : Memory
deriving DecidableEq, Repr

/-- What stops the machine with a fault: NOTHING. The exception-cause table of this core is empty (R147): undefined
opcodes are no-ops, out-of-range accesses are absorbed, and no interrupt or privilege exists (R148, R154). So the type
has no constructor, and no step can end in a fault; that is what the spec says, neither safe nor unsafe. -/
inductive Fault
deriving DecidableEq, Repr

/-- Why a step gives no meaning. -/
inductive Refusal
  /-- Raised by an arm of `exec` whose instruction has no meaning yet (none now). Safe. -/
  | notModelled (mnemonic : String)
  /-- Raised by `dispatch` on a term of `Instr` that is no row of the opcode table (`STA` with an immediate, an `xxx`
  with a documented byte). Decoding never makes one (R66), so no step raises it (log 9). Safe. -/
  | illFormed
deriving DecidableEq, Repr

/-- The machine right after reset (R35, R160), with a memory in which nothing is listed: the vector bytes read as
`Config.initByte`, so PC is 0x0000. SP, `cycles` and `opcode` hold the values of logs 2, 3 and 4, memory that of log 1. -/
def State.reset : State where
  a := 0x00
  x := 0x00
  y := 0x00
  sp := Config.resetSp
  sr := 0x00
  pc := word Config.initByte Config.initByte
  addressAbs := 0x0000
  addressRel := 0x0000
  fetched := 0x00
  opcode := Config.resetOpcode
  cycles := Config.resetLatency.ticks
  mem := []

end Sys2Proof.Machine
end

