-- ==== Sys2Proof/Machine/Flags.lean ====
section
/-! DEFINITION. The status register's flags (10_state.md R21 to R30) and every flag computation of the instruction rules,
as functions of the status byte. -/

namespace Sys2Proof.Machine

/-- The eight bits of SR (R21). -/
inductive Flag
  | c | z | i | d | b | u | v | n
deriving DecidableEq, Repr

/-- The bit number of a flag in SR (R21). -/
def Flag.bit : Flag → Nat
  | .c => 0
  | .z => 1
  | .i => 2
  | .d => 3
  | .b => 4
  | .u => 5
  | .v => 6
  | .n => 7

/-- The mask of a flag in SR (R21). -/
def Flag.mask (f : Flag) : Byte := 1#8 <<< f.bit

/-- Reads one flag of a status byte (R9). -/
def getFlag (f : Flag) (sr : Byte) : Bool := sr.getLsbD f.bit

/-- Writes one flag of a status byte and leaves the seven others (R9, R29). -/
def setFlag (f : Flag) (v : Bool) (sr : Byte) : Byte :=
  if v then sr ||| f.mask else sr &&& ~~~f.mask

/-- SR.f of a state (R9). -/
def State.flag (s : State) (f : Flag) : Bool := getFlag f s.sr

/-- `SR.f <- v` (R9). -/
def State.setFlag (s : State) (f : Flag) (v : Bool) : State :=
  { s with sr := Sys2Proof.Machine.setFlag f v s.sr }

/-- `SetZN(v)`: Z is `v == 0` and N is bit 7 of `v` (R27). -/
def setZN (v sr : Byte) : Byte := setFlag .n (v.getLsbD 7) (setFlag .z (v == 0) sr)

/-- `SetZN(v)` on a state (R10, R27). -/
def State.setZN (s : State) (v : Byte) : State := { s with sr := Sys2Proof.Machine.setZN v s.sr }

/-- The carry as an integer, 0 or 1. -/
def carryIn (sr : Byte) : Nat := (getFlag .c sr).toNat

/-- `sum = A + M + Carry`, an integer in 0..511 (R89). -/
def adcSum (a m sr : Byte) : Nat := a.toNat + m.toNat + carryIn sr

/-- `sum & 0xFF` (R89). -/
def adcResult (a m sr : Byte) : Byte := BitVec.ofNat 8 (adcSum a m sr)

/-- The flags of ADC (R89): C, Z, V, N. D is not read (R88). -/
def adcFlags (a m sr : Byte) : Byte :=
  let r := adcResult a m sr
  setFlag .n (r.getLsbD 7) <|
  setFlag .v ((~~~(a ^^^ m) &&& (a ^^^ r)).getLsbD 7) <|
  setFlag .z (r == 0) <|
  setFlag .c (decide (adcSum a m sr > 255)) sr

/-- The flags of CMP, CPX and CPY for a register `r` (R94 to R96): C is `r >= M` unsigned, Z equality, N bit 7 of the
difference. V is not written. -/
def compareFlags (r m sr : Byte) : Byte :=
  setFlag .n ((r - m).getLsbD 7) <|
  setFlag .z (r == m) <|
  setFlag .c (decide (m.toNat ≤ r.toNat)) sr

/-- The flags of BIT (R97): Z from `A & M`, N and V from bits 7 and 6 of M itself. -/
def bitFlags (a m sr : Byte) : Byte :=
  setFlag .v (m.getLsbD 6) <|
  setFlag .n (m.getLsbD 7) <|
  setFlag .z ((a &&& m) == 0) sr

/-- The flags of a shift or rotate with result `r` and shifted-out bit `out` (R98 to R101). -/
def shiftFlags (out : Bool) (r sr : Byte) : Byte := setZN r (setFlag .c out sr)

/-- The status byte that PHP and BRK push: B and U set in the copy (R121, R136, D8, D10). -/
def pushedStatus (sr : Byte) : Byte := sr ||| 0x30

/-- The status that PLP and RTI load from a pulled byte: B cleared (R123, R137, D9). -/
def pulledStatus (v : Byte) : Byte := v &&& 0xEF

end Sys2Proof.Machine
end

