-- ==== Sys2Proof/Machine/Ops.lean ====
section
/-! DEFINITION. The named operations over memory, the stack and the trap mechanism (20_memory.md R36 to R49,
60_exceptions.md R150, R151). -/

namespace Sys2Proof.Machine

/-! ### The bus -/

/-- The byte listed at an address, or what an unlisted address reads as (R36, R41). -/
def Memory.lookup : Memory → Nat → Byte
  | [], _ => Config.initByte
  | (k, v) :: rest, a => if k = a then v else Memory.lookup rest a

/-- Lists `v` at `a`, keeping the addresses rising. -/
def Memory.insert (a : Nat) (v : Byte) : Memory → Memory
  | [] => [(a, v)]
  | (k, w) :: rest =>
    if a < k then (a, v) :: (k, w) :: rest
    else if a = k then (a, v) :: rest
    else (k, w) :: Memory.insert a v rest

/-- `read(address)` of the bus contract (R36); an address outside the space reads as 0 (R37). -/
def Memory.read (m : Memory) (a : Nat) : Byte :=
  if a < Config.memorySize then m.lookup a else 0

/-- `write(address, v)` of the bus contract (R36): stores `v` and changes no other byte; outside the space it does
nothing (R37). Writing what an unlisted address reads as removes the entry, so equal memories are equal lists. -/
def Memory.write (m : Memory) (a : Nat) (v : Byte) : Memory :=
  if a < Config.memorySize then
    if v = Config.initByte then m.filter (fun cell => cell.1 != a) else Memory.insert a v m
  else m

/-- The canonical form from a lower bound on: addresses rise, lie inside the space, and no entry holds the unlisted
byte. -/
def Memory.wfFrom : Nat → Memory → Bool
  | _, [] => true
  | low, (k, v) :: rest =>
    decide (low ≤ k) && decide (k < Config.memorySize) && decide (v ≠ Config.initByte) && Memory.wfFrom (k + 1) rest

/-- The canonical form of the bus contents. -/
def Memory.wf (m : Memory) : Bool := Memory.wfFrom 0 m

/-- `MemRead(addr, 1)` (R10, R36). A read changes no state (R45), so it gives the byte alone. -/
def State.read (s : State) (a : Addr) : Byte := s.mem.read a.toNat

/-- `MemWrite(addr, 1, v)` (R10, R36). -/
def State.write (s : State) (a : Addr) (v : Byte) : State := { s with mem := s.mem.write a.toNat v }

/-- The little-endian word in memory with its low byte at `lo` and its high byte at `hi` (R42, R43). -/
def State.readWord (s : State) (lo hi : Addr) : Addr := word (s.read hi) (s.read lo)

/-! ### Single registers -/

/-- `PC <- a`. -/
def State.setPc (s : State) (a : Addr) : State := { s with pc := a }

/-- `SP <- v`. -/
def State.setSp (s : State) (v : Byte) : State := { s with sp := v }

/-- `SR <- v`, the whole byte. -/
def State.setSr (s : State) (v : Byte) : State := { s with sr := v }

/-! ### The stack (R46 to R49) -/

/-- The stack byte that an SP value addresses: `0x0100 + SP` (R20). -/
def stackAddr (sp : Byte) : Addr := 0x0100#16 + sp.setWidth 16

/-- `Push(v)`: writes at `0x0100 + SP`, then decrements SP mod 2^8 (R46). -/
def push (v : Byte) (s : State) : State := (s.write (stackAddr s.sp) v).setSp (s.sp - 1)

/-- `Pull()`: increments SP mod 2^8, then reads at `0x0100 + SP` (R47). -/
def pull (s : State) : Byte × State :=
  let t := s.setSp (s.sp + 1)
  (t.read (stackAddr t.sp), t)

/-- A 16-bit value is pushed high byte first (R49). -/
def pushWord (w : Addr) (s : State) : State := push (loByte w) (push (hiByte w) s)

/-- A 16-bit value is pulled low byte first (R49). -/
def pullWord (s : State) : Addr × State :=
  let lo := pull s
  let hi := pull lo.2
  (word hi.1 lo.1, hi.2)

/-! ### The trap (R150, R151) -/

/-- Trap entry, which only BRK takes (R136, R150): the return address skips the padding byte and is pushed high byte
first, then SR with B and U set; I is set; PC comes from the BRK vector, low byte read first. The mode does not
change, since there is one (R154). -/
def enterTrap (s : State) : State :=
  let s := push (pushedStatus s.sr) (pushWord (s.pc + 1) s)
  let s := s.setFlag .i true
  s.setPc (s.readWord Config.brkVectorLo Config.brkVectorHi)

/-- Trap return, which only RTI takes (R137, R151): SR is pulled with B cleared, then PC low byte first, with no + 1. -/
def returnFromTrap (s : State) : State :=
  let v := pull s
  let w := pullWord (v.2.setSr (pulledStatus v.1))
  w.2.setPc w.1

end Sys2Proof.Machine
end

