-- ==== Sys2Proof/Machine/Operands.lean ====
section
/-! DEFINITION. The addressing-mode resolver and the operand access it shares with the instruction rules
(40_addressing.md R71 to R85). -/

namespace Sys2Proof.Machine

/-- `sext_16` (R8, R62). -/
def sext16 (r : Byte) : Addr := r.signExtend 16

/-- `zext_16` (R8, R60). -/
def zext16 (v : Byte) : Addr := v.setWidth 16

/-- The pointer that INDIRECT reads, with the page-wrap defect: the high byte comes from the pointer's own page
(R80). -/
def indirectTarget (s : State) (p : Addr) : Addr := s.readWord p (word (hiByte p) (loByte p + 1))

/-- The little-endian word at a zero-page pointer; its second byte also lies in page 0 (R81, R82, D5). -/
def zeroPageWord (s : State) (p : Byte) : Addr := s.readWord (zext16 p) (zext16 (p + 1))

/-- The address that a mode indexes, before the index is added (R83): the base of ABX, ABY and IZY. -/
def baseAddress (m : Operand) (s : State) : Addr :=
  match m with
  | .abx a | .aby a => a
  | .izy p => zeroPageWord s p
  | _ => 0

/-- The effective address that a mode puts into `addressAbs` (R72 to R82), in the state on entry to the mode. Sums are
mod 2^16, zero-page sums mod 2^8 (R38, D4). IMP and REL put none there. -/
def effectiveAddress (m : Operand) (s : State) : Addr :=
  match m with
  | .imp | .rel _ => s.addressAbs
  | .imm _ => s.pc
  | .zp0 z => zext16 z
  | .zpx z => zext16 (z + s.x)
  | .zpy z => zext16 (z + s.y)
  | .abs a => a
  | .abx a => a + zext16 s.x
  | .aby a => a + zext16 s.y
  | .ind a => indirectTarget s a
  | .izx p => zeroPageWord s (p + s.x)
  | .izy p => zeroPageWord s p + zext16 s.y

/-- The page-crossing signal (R83): only in ABX, ABY and IZY, when the indexed address lies in another page than the
base. -/
def crossed (m : Operand) (s : State) : Bool :=
  match m with
  | .abx _ | .aby _ | .izy _ => hiByte (effectiveAddress m s) != hiByte (baseAddress m s)
  | _ => false

/-- The addressing-mode step (R71 to R82): PC moves past the operand bytes, and IMP copies A into `fetched`, REL writes
`addressRel`, every other mode writes `addressAbs`. The operand bytes are those the instruction was decoded from
(log 8). -/
def resolve (m : Operand) (s : State) : State :=
  let t := { s with pc := s.pc + BitVec.ofNat 16 m.mode.operandBytes }
  match m with
  | .imp => { t with fetched := s.a }
  | .rel r => { t with addressRel := sext16 r }
  | _ => { t with addressAbs := effectiveAddress m s }

/-- `Fetch()` (R84): leaves the operand in `fetched`. In IMP it already equals A; IMM takes the instruction's own byte,
which is the byte at `addressAbs` (R59, log 8); every other mode reads memory at `addressAbs`. -/
def fetch (m : Operand) (s : State) : State :=
  match m with
  | .imp => s
  | .imm i => { s with fetched := i }
  | _ => { s with fetched := s.read s.addressAbs }

/-- `WriteBack(v)` (R85): to A in IMP, else to memory at `addressAbs`. -/
def writeBack (m : Operand) (v : Byte) (s : State) : State :=
  match m with
  | .imp => { s with a := v }
  | _ => s.write s.addressAbs v

end Sys2Proof.Machine
end

