-- ==== Sys2Proof/Machine/Timing.lean ====
section
/-! DEFINITION. Cycle counts (70_reset_and_hazards.md R167 to R169, 45_control.md R124). No architectural result depends
on them (R166). -/

namespace Sys2Proof.Machine

/-- The read-modify-write instructions (R54). -/
def isRmw : Mnemonic → Bool
  | .asl | .lsr | .rol | .ror | .inc | .dec => true
  | _ => false

/-- The base count of a documented instruction by its mode (R169); the `cycles` column of the opcode table. -/
def documentedCycles (n : Mnemonic) (m : Mode) : Nat :=
  match m with
  | .imp =>
    match n with
    | .pha | .php => 3
    | .pla | .plp => 4
    | .rts | .rti => 6
    | .brk => 7
    | _ => 2
  | .imm => 2
  | .rel => 2
  | .zp0 => if isRmw n then 5 else 3
  | .zpx | .zpy => if isRmw n then 6 else 4
  | .abs =>
    match n with
    | .jmp => 3
    | .jsr => 6
    | _ => if isRmw n then 6 else 4
  | .abx | .aby => if n = .sta then 5 else if isRmw n then 7 else 4
  | .ind => 5
  | .izx => 6
  | .izy => if n = .sta then 6 else 5

/-- The base count (R169): the table's, or the free value of an illegal opcode, from 1 to 8 (D13, log 5). -/
def baseCycles (i : Instr) : Nat :=
  match i with
  | .xxx op => (Config.illegalCycles op).val + 1
  | i => documentedCycles i.mnemonic i.operand.mode

/-- The instructions that can take the page-crossing penalty (R168). -/
def takesPenalty : Mnemonic → Bool
  | .adc | .and | .cmp | .eor | .lda | .ldx | .ldy | .ora | .sbc => true
  | _ => false

/-- The modes that can take it (R168). -/
def isIndexedMode : Mode → Bool
  | .abx | .aby | .izy => true
  | _ => false

/-- `penalty` (R168): 1 exactly when the instruction, the mode and the `crossed` signal all say so. -/
def penalty (n : Mnemonic) (m : Mode) (crossing : Bool) : Nat :=
  if takesPenalty n && isIndexedMode m && crossing then 1 else 0

/-- Where a taken branch goes (R124). -/
def branchTarget (s : State) : Addr := s.pc + s.addressRel

/-- `bcyc` (R124): 0 if not taken, 1 if taken in the page of PC, 2 if taken to another page. -/
def branchCycles (cond : Bool) (s : State) : Nat :=
  if cond then (if hiByte (branchTarget s) != hiByte s.pc then 2 else 1) else 0

end Sys2Proof.Machine
end

