-- ==== Sys2Proof/Machine/Engine.lean ====
section
/-! DEFINITION. The dispatch that every instruction rule runs in (30_encoding.md R68, 00_scope.md R11), the fetch of an
instruction's bytes, and the engine's countdown (70_reset_and_hazards.md R165). -/

namespace Sys2Proof.Machine

/-- A dispatch's outcome. -/
abbrev Result := Host.Outcome State Fault Refusal

/-- The dispatch prologue (R68): latch the opcode, PC + 1, SR.U <- 1. -/
def prologue (op : Byte) (s : State) : State :=
  { s with opcode := op, pc := s.pc + 1, sr := setFlag .u true s.sr }

/-- The state in which an instruction's rule runs (R11): after the prologue and the addressing-mode step. -/
def ruleState (op : Byte) (m : Operand) (s : State) : State := resolve m (prologue op s)

/-- The dispatch epilogue (R68): set `cycles`, SR.U <- 1 again. -/
def epilogue (n : Nat) (s : State) : State :=
  { s with cycles := n, sr := setFlag .u true s.sr }

/-- One dispatch of `i` (R68): prologue, addressing mode, the rule, then `cycles <- base + penalty + bcyc` (R167) and
the epilogue. `bcyc` is read in the state the rule starts from. A term that is no row of the table is refused
(log 9). -/
def dispatchWith (i : Instr) (rule : State → State) (bcyc : State → Nat) (s : State) : Result :=
  match i.opcodeByte with
  | none => .refused .illFormed
  | some op =>
    let r := ruleState op i.operand s
    let extra := penalty i.mnemonic i.operand.mode (crossed i.operand (prologue op s)) + bcyc r
    .next (epilogue (baseCycles i + extra) (rule r))

/-- A dispatch of an instruction that is no branch: its branch contribution is 0 (R167). -/
def dispatch (i : Instr) (rule : State → State) (s : State) : Result :=
  dispatchWith i rule (fun _ => 0) s

/-- The instruction whose bytes stand at PC (R57, R68, R19); the decoder looks at no byte that the opcode's mode does not
consume. -/
def fetchInstr (s : State) : Instr :=
  decodeBytes (s.read s.pc) (s.read (s.pc + 1)) (s.read (s.pc + 2))

/-- The closing decrement of a tick (R165). -/
def countDown (s : State) : State := { s with cycles := s.cycles - 1 }

/-- The closing decrement after a dispatch; an outcome that is no next state stays. -/
def finishTick : Result → Result
  | .next s => .next (countDown s)
  | .fault r => .fault r
  | .refused r => .refused r

end Sys2Proof.Machine
end

