-- ==== Sys2Proof/Machine/Alu.lean ====
section
/-! DEFINITION. ADC, SBC, AND, ORA, EOR, CMP, CPX, CPY, BIT (41_alu.md R87 to R97). -/

namespace Sys2Proof.Machine

/-- `A <- A + v + C` with the flags of ADC (R89). -/
def addToA (v : Byte) (s : State) : State :=
  { s with a := adcResult s.a v s.sr, sr := adcFlags s.a v s.sr }

/-- `A <- v; SetZN(A)`: the end of every rule that loads or computes A (R91 to R93, R108). -/
def setA (v : Byte) (s : State) : State := ({ s with a := v } : State).setZN v

/-- The flags of a compare of the register value `r` with the operand in `fetched` (R94 to R96). -/
def compareWith (r : Byte) (s : State) : State := { s with sr := compareFlags r s.fetched s.sr }

/-- The rule of ADC (R89), on the state that `Fetch` leaves. -/
def ruleAdc (s : State) : State := addToA s.fetched s

/-- The rule of SBC (R90): ADC with M replaced by `M ^ 0xFF`. -/
def ruleSbc (s : State) : State := addToA (s.fetched ^^^ 0xFF) s

/-- The rule of BIT (R97). -/
def ruleBit (s : State) : State := { s with sr := bitFlags s.a s.fetched s.sr }

/-- ADC (R89). -/
def execAdc (m : Operand) (s : State) : Result :=
  dispatch (.adc m) (fun s => ruleAdc (fetch m s)) s

/-- SBC (R90). -/
def execSbc (m : Operand) (s : State) : Result :=
  dispatch (.sbc m) (fun s => ruleSbc (fetch m s)) s

/-- AND (R91). -/
def execAnd (m : Operand) (s : State) : Result :=
  dispatch (.and m) (fun s => let t := fetch m s; setA (t.a &&& t.fetched) t) s

/-- ORA (R92). -/
def execOra (m : Operand) (s : State) : Result :=
  dispatch (.ora m) (fun s => let t := fetch m s; setA (t.a ||| t.fetched) t) s

/-- EOR (R93). -/
def execEor (m : Operand) (s : State) : Result :=
  dispatch (.eor m) (fun s => let t := fetch m s; setA (t.a ^^^ t.fetched) t) s

/-- CMP (R94). -/
def execCmp (m : Operand) (s : State) : Result :=
  dispatch (.cmp m) (fun s => compareWith s.a (fetch m s)) s

/-- CPX (R95). -/
def execCpx (m : Operand) (s : State) : Result :=
  dispatch (.cpx m) (fun s => compareWith s.x (fetch m s)) s

/-- CPY (R96). -/
def execCpy (m : Operand) (s : State) : Result :=
  dispatch (.cpy m) (fun s => compareWith s.y (fetch m s)) s

/-- BIT (R97). -/
def execBit (m : Operand) (s : State) : Result :=
  dispatch (.bit m) (fun s => ruleBit (fetch m s)) s

end Sys2Proof.Machine
end

