-- ==== Sys2Proof/Machine/Shift.lean ====
section
/-! DEFINITION. ASL, LSR, ROL, ROR, INC, DEC, INX, DEX, INY, DEY (42_shift_incdec.md R98 to R107). -/

namespace Sys2Proof.Machine

/-- `(M << 1) | c0`, reduced to 8 bits: ASL with `c0` 0, ROL with the old carry (R98, R100). -/
def shiftLeft (c0 : Bool) (m : Byte) : Byte := (m <<< 1) ||| (BitVec.ofBool c0).setWidth 8

/-- `(c0 << 7) | (M >> 1)`: LSR with `c0` 0, ROR with the old carry (R99, R101). -/
def shiftRight (c0 : Bool) (m : Byte) : Byte := ((BitVec.ofBool c0).setWidth 8 <<< 7) ||| (m >>> 1)

/-- The common end of the four (R98 to R101), on the state that `Fetch` leaves: C takes the bit shifted out, Z and N come
from the result `r`, and the result is written back. -/
def shiftEnd (m : Operand) (out : Bool) (r : Byte) (s : State) : State :=
  writeBack m r { s with sr := shiftFlags out r s.sr }

/-- The rule of ASL (R98). -/
def ruleAsl (m : Operand) (s : State) : State :=
  shiftEnd m (s.fetched.getLsbD 7) (shiftLeft false s.fetched) s

/-- The rule of LSR (R99). -/
def ruleLsr (m : Operand) (s : State) : State :=
  shiftEnd m (s.fetched.getLsbD 0) (shiftRight false s.fetched) s

/-- The rule of ROL (R100). -/
def ruleRol (m : Operand) (s : State) : State :=
  shiftEnd m (s.fetched.getLsbD 7) (shiftLeft (s.flag .c) s.fetched) s

/-- The rule of ROR (R101). -/
def ruleRor (m : Operand) (s : State) : State :=
  shiftEnd m (s.fetched.getLsbD 0) (shiftRight (s.flag .c) s.fetched) s

/-- `MemWrite(addressAbs, 1, r); SetZN(r)`: the end of INC and DEC (R102, R103). -/
def storeCount (r : Byte) (s : State) : State := (s.write s.addressAbs r).setZN r

/-- `X <- v; SetZN(X)` (R104, R105, R109, R114, R118). -/
def setX (v : Byte) (s : State) : State := ({ s with x := v } : State).setZN v

/-- `Y <- v; SetZN(Y)` (R106, R107, R110, R115). -/
def setY (v : Byte) (s : State) : State := ({ s with y := v } : State).setZN v

/-- ASL (R98). -/
def execAsl (m : Operand) (s : State) : Result :=
  dispatch (.asl m) (fun s => ruleAsl m (fetch m s)) s

/-- LSR (R99). -/
def execLsr (m : Operand) (s : State) : Result :=
  dispatch (.lsr m) (fun s => ruleLsr m (fetch m s)) s

/-- ROL (R100). -/
def execRol (m : Operand) (s : State) : Result :=
  dispatch (.rol m) (fun s => ruleRol m (fetch m s)) s

/-- ROR (R101). -/
def execRor (m : Operand) (s : State) : Result :=
  dispatch (.ror m) (fun s => ruleRor m (fetch m s)) s

/-- INC (R102). -/
def execInc (m : Operand) (s : State) : Result :=
  dispatch (.inc m) (fun s => let t := fetch m s; storeCount (t.fetched + 1) t) s

/-- DEC (R103). -/
def execDec (m : Operand) (s : State) : Result :=
  dispatch (.dec m) (fun s => let t := fetch m s; storeCount (t.fetched - 1) t) s

/-- INX (R104). -/
def execInx (s : State) : Result :=
  dispatch .inx (fun s => setX (s.x + 1) s) s

/-- DEX (R105). -/
def execDex (s : State) : Result :=
  dispatch .dex (fun s => setX (s.x - 1) s) s

/-- INY (R106). -/
def execIny (s : State) : Result :=
  dispatch .iny (fun s => setY (s.y + 1) s) s

/-- DEY (R107). -/
def execDey (s : State) : Result :=
  dispatch .dey (fun s => setY (s.y - 1) s) s

end Sys2Proof.Machine
end

