-- ==== Sys2Proof/Machine/LoadStore.lean ====
section
/-! DEFINITION. LDA, LDX, LDY, STA, STX, STY and the register transfers (43_load_store_transfer.md R108 to R119). -/

namespace Sys2Proof.Machine

/-- LDA (R108). -/
def execLda (m : Operand) (s : State) : Result :=
  dispatch (.lda m) (fun s => let t := fetch m s; setA t.fetched t) s

/-- LDX (R109). -/
def execLdx (m : Operand) (s : State) : Result :=
  dispatch (.ldx m) (fun s => let t := fetch m s; setX t.fetched t) s

/-- LDY (R110). -/
def execLdy (m : Operand) (s : State) : Result :=
  dispatch (.ldy m) (fun s => let t := fetch m s; setY t.fetched t) s

/-- STA (R111): no `Fetch`, no read at `addressAbs`. -/
def execSta (m : Operand) (s : State) : Result :=
  dispatch (.sta m) (fun s => s.write s.addressAbs s.a) s

/-- STX (R112). -/
def execStx (m : Operand) (s : State) : Result :=
  dispatch (.stx m) (fun s => s.write s.addressAbs s.x) s

/-- STY (R113). -/
def execSty (m : Operand) (s : State) : Result :=
  dispatch (.sty m) (fun s => s.write s.addressAbs s.y) s

/-- TAX (R114). -/
def execTax (s : State) : Result :=
  dispatch .tax (fun s => setX s.a s) s

/-- TAY (R115). -/
def execTay (s : State) : Result :=
  dispatch .tay (fun s => setY s.a s) s

/-- TXA (R116). -/
def execTxa (s : State) : Result :=
  dispatch .txa (fun s => setA s.x s) s

/-- TYA (R117). -/
def execTya (s : State) : Result :=
  dispatch .tya (fun s => setA s.y s) s

/-- TSX (R118). -/
def execTsx (s : State) : Result :=
  dispatch .tsx (fun s => setX s.sp s) s

/-- TXS (R119): no flag is written. -/
def execTxs (s : State) : Result :=
  dispatch .txs (fun s => s.setSp s.x) s

end Sys2Proof.Machine
end

