-- ==== Sys2Proof/Machine/Stack.lean ====
section
/-! DEFINITION. PHA, PHP, PLA, PLP (44_stack.md R120 to R123). -/

namespace Sys2Proof.Machine

/-- PHA (R120). -/
def execPha (s : State) : Result :=
  dispatch .pha (fun s => push s.a s) s

/-- PHP (R121): the pushed copy has B and U set; SR itself is not changed. -/
def execPhp (s : State) : Result :=
  dispatch .php (fun s => push (pushedStatus s.sr) s) s

/-- PLA (R122). -/
def execPla (s : State) : Result :=
  dispatch .pla (fun s => let v := pull s; setA v.1 v.2) s

/-- PLP (R123): B of the pulled byte is dropped; the epilogue then forces U. -/
def execPlp (s : State) : Result :=
  dispatch .plp (fun s => let v := pull s; v.2.setSr (pulledStatus v.1)) s

end Sys2Proof.Machine
end

