-- ==== Sys2Proof/Machine/Control.lean ====
section
/-! DEFINITION. The branches, JMP, JSR, RTS, BRK and RTI (45_control.md R124 to R137). -/

namespace Sys2Proof.Machine

/-- The rule of a conditional branch (R124): to the target when the condition holds, else PC stays. -/
def branchIf (cond : State → Bool) (s : State) : State :=
  if cond s then s.setPc (branchTarget s) else s

/-- The dispatch of a conditional branch: rule R124 and its branch contribution. -/
def branch (i : Instr) (cond : State → Bool) (s : State) : Result :=
  dispatchWith i (branchIf cond) (fun t => branchCycles (cond t) t) s

/-- BPL (R125). -/
def execBpl (r : Byte) (s : State) : Result :=
  branch (.bpl r) (fun s => !s.flag .n) s

/-- BMI (R126). -/
def execBmi (r : Byte) (s : State) : Result :=
  branch (.bmi r) (fun s => s.flag .n) s

/-- BVC (R127). -/
def execBvc (r : Byte) (s : State) : Result :=
  branch (.bvc r) (fun s => !s.flag .v) s

/-- BVS (R128). -/
def execBvs (r : Byte) (s : State) : Result :=
  branch (.bvs r) (fun s => s.flag .v) s

/-- BCC (R129). -/
def execBcc (r : Byte) (s : State) : Result :=
  branch (.bcc r) (fun s => !s.flag .c) s

/-- BCS (R130). -/
def execBcs (r : Byte) (s : State) : Result :=
  branch (.bcs r) (fun s => s.flag .c) s

/-- BNE (R131). -/
def execBne (r : Byte) (s : State) : Result :=
  branch (.bne r) (fun s => !s.flag .z) s

/-- BEQ (R132). -/
def execBeq (r : Byte) (s : State) : Result :=
  branch (.beq r) (fun s => s.flag .z) s

/-- JMP (R133). -/
def execJmp (m : Operand) (s : State) : Result :=
  dispatch (.jmp m) (fun s => s.setPc s.addressAbs) s

/-- JSR (R134): pushes the address of its own last byte, high byte first. -/
def execJsr (a : Addr) (s : State) : Result :=
  dispatch (.jsr a) (fun s => (pushWord (s.pc - 1) s).setPc s.addressAbs) s

/-- RTS (R135): pulls the address, low byte first, and adds 1. -/
def execRts (s : State) : Result :=
  dispatch .rts (fun s => let w := pullWord s; w.2.setPc (w.1 + 1)) s

/-- RTI (R137, R151). -/
def execRti (s : State) : Result :=
  dispatch .rti returnFromTrap s

/-- BRK (R136, R150): its effect is the trap entry. -/
def execBrk (s : State) : Result :=
  dispatch .brk enterTrap s

end Sys2Proof.Machine
end

