-- ==== Sys2Proof/Machine/FlagOps.lean ====
section
/-! DEFINITION. CLC, SEC, CLI, SEI, CLV, CLD, SED, NOP and the illegal opcodes (46_flags_nop.md R138 to R146). -/

namespace Sys2Proof.Machine

/-- CLC (R138). -/
def execClc (s : State) : Result :=
  dispatch .clc (fun s => s.setFlag .c false) s

/-- SEC (R139). -/
def execSec (s : State) : Result :=
  dispatch .sec (fun s => s.setFlag .c true) s

/-- CLI (R140). -/
def execCli (s : State) : Result :=
  dispatch .cli (fun s => s.setFlag .i false) s

/-- SEI (R141). -/
def execSei (s : State) : Result :=
  dispatch .sei (fun s => s.setFlag .i true) s

/-- CLV (R142). -/
def execClv (s : State) : Result :=
  dispatch .clv (fun s => s.setFlag .v false) s

/-- CLD (R143). -/
def execCld (s : State) : Result :=
  dispatch .cld (fun s => s.setFlag .d false) s

/-- SED (R144). -/
def execSed (s : State) : Result :=
  dispatch .sed (fun s => s.setFlag .d true) s

/-- NOP (R145): nothing beyond the dispatch. -/
def execNop (s : State) : Result :=
  dispatch .nop id s

/-- XXX (R146): a one-byte no-op; its cycle count is the free value of log 5. -/
def execXxx (op : Byte) (s : State) : Result :=
  dispatch (.xxx op) id s

end Sys2Proof.Machine
end

