-- ==== Sys2Proof/Machine/Step.lean ====
section
/-! DEFINITION. One step of the machine: one tick (70_reset_and_hazards.md R165), and the placing of an instruction where
the next step fetches. -/

namespace Sys2Proof.Machine

/-- One `tick` (R165): Idle, it dispatches the instruction at PC; Busy, it makes no access and changes no register.
Either way it then counts `cycles` down by one. One step is one tick (log 6). -/
def step (s : State) : Host.Outcome State Fault Refusal :=
  if s.cycles = 0 then finishTick (exec (fetchInstr s) s) else .next (countDown s)

/-- `s` with the instruction whose bits are `w` (numbered as R58 says, the bits above `nbits` zero, three bytes in all)
stored at PC, and the engine Idle, so that the next tick dispatches it (log 7). -/
def State.withFetchWord (s : State) (nbits w : Nat) : State :=
  let s := s.write s.pc (tableByte nbits w 0)
  let s := s.write (s.pc + 1) (tableByte nbits w 1)
  let s := s.write (s.pc + 2) (tableByte nbits w 2)
  { s with cycles := 0 }

end Sys2Proof.Machine
end

