-- ==== Sys2Proof/Machine/Bus.lean ====
section
/-! DEFINITION. The bus master port (00_scope.md R6): which accesses a tick and a reset make, in order
(20_memory.md R50, 40_addressing.md R84 to R86, 70_reset_and_hazards.md R161, R165). A read changes no state (R45), so
these lists stand beside the meanings, and claims tie the two together (log 13). -/

namespace Sys2Proof.Machine

/-- One access on the port, with the byte it moves. -/
inductive BusAccess
  | read (a : Addr) (v : Byte)
  | write (a : Addr) (v : Byte)
deriving DecidableEq, Repr

/-- The reads of consecutive bytes from an address on; addresses are mod 2^16 (R19, R86). -/
def streamReads (a : Addr) : List Byte → List BusAccess
  | [] => []
  | v :: rest => .read a v :: streamReads (a + 1) rest

/-- A read of the byte that memory holds. -/
def readOf (s : State) (a : Addr) : BusAccess := .read a (s.read a)

/-- The bytes that a mode reads from the instruction stream (R86): all its operand bytes, but none for IMM, whose byte
`Fetch` reads. -/
def modeStream (m : Operand) : List Byte :=
  match m with
  | .imm _ => []
  | m => m.bytes

/-- The pointer bytes that an indirect mode reads, low byte first (R80, R81, R82, R86). -/
def pointerReads (m : Operand) (s : State) : List BusAccess :=
  match m with
  | .ind p => [readOf s p, readOf s (word (hiByte p) (loByte p + 1))]
  | .izx p => [readOf s (zext16 (p + s.x)), readOf s (zext16 (p + s.x + 1))]
  | .izy p => [readOf s (zext16 p), readOf s (zext16 (p + 1))]
  | _ => []

/-- The one read of `Fetch()` at `addressAbs`, none in IMP (R84). -/
def fetchAccess (m : Operand) (s : State) : List BusAccess :=
  match m with
  | .imp => []
  | m => [.read s.addressAbs (fetch m s).fetched]

/-- The one write of `WriteBack`, none in IMP (R85). -/
def writeBackAccess (m : Operand) (v : Byte) (s : State) : List BusAccess :=
  match m with
  | .imp => []
  | _ => [.write s.addressAbs v]

/-- The writes of the bytes that are pushed one after the other from an SP value on (R46). -/
def pushAccesses (sp : Byte) : List Byte → List BusAccess
  | [] => []
  | v :: rest => .write (stackAddr sp) v :: pushAccesses (sp - 1) rest

/-- The reads of `k` pulls (R47). -/
def pullAccesses (s : State) (sp : Byte) : Nat → List BusAccess
  | 0 => []
  | k + 1 => readOf s (stackAddr (sp + 1)) :: pullAccesses s (sp + 1) k

/-- The accesses of the instruction's own rule, in the order it makes them (R50.4), in the state the rule starts from. -/
def ruleAccesses (i : Instr) (s : State) : List BusAccess :=
  match i with
  | .adc m | .sbc m | .and m | .ora m | .eor m | .cmp m | .cpx m | .cpy m | .bit m => fetchAccess m s
  | .lda m | .ldx m | .ldy m => fetchAccess m s
  | .asl m => fetchAccess m s ++ writeBackAccess m (shiftLeft false (fetch m s).fetched) s
  | .lsr m => fetchAccess m s ++ writeBackAccess m (shiftRight false (fetch m s).fetched) s
  | .rol m => fetchAccess m s ++ writeBackAccess m (shiftLeft (s.flag .c) (fetch m s).fetched) s
  | .ror m => fetchAccess m s ++ writeBackAccess m (shiftRight (s.flag .c) (fetch m s).fetched) s
  | .inc m => fetchAccess m s ++ [.write s.addressAbs ((fetch m s).fetched + 1)]
  | .dec m => fetchAccess m s ++ [.write s.addressAbs ((fetch m s).fetched - 1)]
  | .sta _ => [.write s.addressAbs s.a]
  | .stx _ => [.write s.addressAbs s.x]
  | .sty _ => [.write s.addressAbs s.y]
  | .pha => pushAccesses s.sp [s.a]
  | .php => pushAccesses s.sp [pushedStatus s.sr]
  | .pla | .plp => pullAccesses s s.sp 1
  | .jsr _ => pushAccesses s.sp [hiByte (s.pc - 1), loByte (s.pc - 1)]
  | .rts => pullAccesses s s.sp 2
  | .rti => pullAccesses s s.sp 3
  | .brk =>
    pushAccesses s.sp [hiByte (s.pc + 1), loByte (s.pc + 1), pushedStatus s.sr] ++
    [readOf s Config.brkVectorLo, readOf s Config.brkVectorHi]
  | .inx | .dex | .iny | .dey | .tax | .tay | .txa | .tya | .tsx | .txs => []
  | .bpl _ | .bmi _ | .bvc _ | .bvs _ | .bcc _ | .bcs _ | .bne _ | .beq _ | .jmp _ => []
  | .clc | .sec | .cli | .sei | .clv | .cld | .sed | .nop | .xxx _ => []

/-- Every access of the dispatch of `i`, in the order of R50: the opcode, the operand bytes, the pointer bytes, the rule's
own. -/
def dispatchAccesses (i : Instr) (s : State) : List BusAccess :=
  match i.opcodeByte with
  | none => []
  | some op =>
    .read s.pc op :: streamReads (s.pc + 1) (modeStream i.operand) ++
    pointerReads i.operand (prologue op s) ++ ruleAccesses i (ruleState op i.operand s)

/-- The accesses of a tick (R165): those of the dispatch when Idle, none when Busy. -/
def tickAccesses (s : State) : List BusAccess :=
  if s.cycles = 0 then dispatchAccesses (fetchInstr s) s else []

/-- The accesses of a reset: the two vector reads, and no write (R161). -/
def resetAccesses (s : State) : List BusAccess :=
  [readOf s Config.resetVectorLo, readOf s Config.resetVectorHi]

/-- The bus contents after a list of accesses: its writes, in order (R36, R51). -/
def applyAccesses : List BusAccess → Memory → Memory
  | [], m => m
  | .read _ _ :: rest, m => applyAccesses rest m
  | .write a v :: rest, m => applyAccesses rest (m.write a.toNat v)

/-- The addresses that a list of accesses writes. -/
def writtenAddrs : List BusAccess → List Addr
  | [] => []
  | .read _ _ :: rest => writtenAddrs rest
  | .write a _ :: rest => a :: writtenAddrs rest

/-- The addresses that a list of accesses reads. -/
def readAddrs : List BusAccess → List Addr
  | [] => []
  | .read a _ :: rest => a :: readAddrs rest
  | .write _ _ :: rest => readAddrs rest

end Sys2Proof.Machine
end

