-- ==== Sys2Proof/Machine/HostOps.lean ====
section
/-! DEFINITION. What the host may do between ticks (70_reset_and_hazards.md R160 to R162, R171, R172; 60_exceptions.md
R158; 20_memory.md R52). -/

namespace Sys2Proof.Machine

/-- What R160 and R35 leave open of a reset, as arguments (R5): RESET_SP (D2), RESET_LATENCY (D3) and the unspecified
opcode latch (D23). -/
structure ResetParams where
  sp : Byte
  latency : ResetLatency
  opcode : Byte
deriving DecidableEq, Repr

/-- The values that `State.reset` holds (logs 2, 3, 4). -/
def ResetParams.ofConfig : ResetParams where
  sp := Config.resetSp
  latency := Config.resetLatency
  opcode := Config.resetOpcode

/-- The reset operation (R160), in Idle or in Busy (R162): PC from the reset vector, A, X, Y, SR and the scratch fields
zero, SP and `cycles` from the parameters, memory unchanged (R161). -/
def hostReset (p : ResetParams) (s : State) : State where
  a := 0x00
  x := 0x00
  y := 0x00
  sp := p.sp
  sr := 0x00
  pc := s.readWord Config.resetVectorLo Config.resetVectorHi
  addressAbs := 0x0000
  addressRel := 0x0000
  fetched := 0x00
  opcode := p.opcode
  cycles := p.latency.ticks
  mem := s.mem

/-- A bus read by the host (R52, R171): outside the space it gives 0 (R37). -/
def hostRead (a : Nat) (s : State) : Byte := s.mem.read a

/-- A bus write by the host (R52, R171): outside the space it does nothing (R37). -/
def hostWrite (a : Nat) (v : Byte) (s : State) : State := { s with mem := s.mem.write a v }

/-- Writes bytes at consecutive addresses; those beyond the space are dropped (R37). -/
def hostWriteBytes (base : Nat) : List Byte → State → State
  | [], s => s
  | v :: rest, s => hostWriteBytes (base + 1) rest (hostWrite base v s)

/-- The loading contract (R171): the bytes at the base address, and the base's low byte at the reset vector's low byte.
The parsing of hex text is the loader's (R4). DESIGN CHOICE (log 14): the vector byte is written last, so it replaces the
program's own byte where the program covers 0xFFFC; the spec gives no order. -/
def loadProgram (base : Addr) (bytes : List Byte) (s : State) : State :=
  hostWrite Config.resetVectorLo.toNat (loByte base) (hostWriteBytes base.toNat bytes s)

/-- The read-only outputs of the debug port (R6, R158). -/
structure DebugPort where
  a : Byte
  x : Byte
  y : Byte
  sp : Byte
  sr : Byte
  pc : Addr
deriving DecidableEq, Repr

/-- Reads the debug port (R158); the scratch fields, `opcode` and `cycles` are not exposed. -/
def debugPort (s : State) : DebugPort := ⟨s.a, s.x, s.y, s.sp, s.sr, s.pc⟩

/-- One hexadecimal digit. -/
def hexDigit (n : Nat) : Char :=
  ['0', '1', '2', '3', '4', '5', '6', '7', '8', '9', 'A', 'B', 'C', 'D', 'E', 'F'].getD n '?'

/-- A byte as two hexadecimal digits, high digit first. -/
def hexByte (v : Byte) : List Char := [hexDigit (v.toNat / 16), hexDigit (v.toNat % 16)]

/-- The characters of the register dump: the six outputs of the debug port, each after its name. DESIGN CHOICE (log 12): the
spec lets a model choose the layout freely (I10); this is the one in which 95_test_vectors.md writes an end state. -/
def DebugPort.dumpChars (p : DebugPort) : List Char :=
  ['A', '='] ++ hexByte p.a ++ [' ', 'X', '='] ++ hexByte p.x ++ [' ', 'Y', '='] ++ hexByte p.y ++
  [' ', 'S', 'P', '='] ++ hexByte p.sp ++ [' ', 'S', 'R', '='] ++ hexByte p.sr ++
  [' ', 'P', 'C', '='] ++ hexByte (hiByte p.pc) ++ hexByte (loByte p.pc)

/-- The human-readable dump of all registers (R6, R158). Reading it changes no state, and it exposes no more than the debug
port does. -/
def registerDump (s : State) : String := String.ofList (debugPort s).dumpChars

/-- Sequencing of outcomes: the first that is no next state ends the run. -/
def Result.andThen (o : Result) (f : State → Result) : Result :=
  match o with
  | .next s => f s
  | .fault r => .fault r
  | .refused r => .refused r

/-- `k` ticks (R165). -/
def runTicks : Nat → State → Result
  | 0, s => .next s
  | k + 1, s => Result.andThen (step s) (runTicks k)

/-- One instruction from an Idle state: its dispatch tick and then `cycles` more (R166, R172). -/
def runInstruction (s : State) : Result :=
  Result.andThen (step s) fun t => runTicks t.cycles t

/-- `n` instructions, one after the other (R172). -/
def runInstructions : Nat → State → Result
  | 0, s => .next s
  | n + 1, s => Result.andThen (runInstruction s) (runInstructions n)

/-- The test driver of R172, on a bus that the host has loaded: reset, tick RESET_LATENCY times, then `n` instructions. -/
def testDriver (p : ResetParams) (n : Nat) (s : State) : Result :=
  Result.andThen (runTicks p.latency.ticks (hostReset p s)) (runInstructions n)

/-- What the host does to the machine between and with ticks (R171); reading the bus or the debug port, and stopping,
change nothing. -/
inductive HostAction
  | tick
  | reset (p : ResetParams)
  | write (a : Nat) (v : Byte)
deriving DecidableEq, Repr

/-- One action of the host (R171). -/
def hostAct (h : HostAction) (s : State) : Result :=
  match h with
  | .tick => step s
  | .reset p => .next (hostReset p s)
  | .write a v => .next (hostWrite a v s)

/-- A sequence of host actions in their total order (R51, R52). -/
def hostRun : List HostAction → State → Result
  | [], s => .next s
  | h :: rest, s => Result.andThen (hostAct h s) (hostRun rest)

end Sys2Proof.Machine
end

