-- ==== Sys2Proof/Safety.lean ====
section
/-! DEFINITION. What claims about the machine are stated in: the invariant of every run, the operand an instruction
consumes, and which state each instruction may write (10_state.md R15 to R30, 20_memory.md R50). -/

namespace Sys2Proof.Machine

/-- The invariant of every run from a reset state: the bus contents keep their canonical form, `cycles` stays within its
range (R32), and the stored Break flag stays 0 (R23). -/
structure State.Inv (s : State) : Prop where
  memoryCanonical : s.mem.wf = true
  cyclesInRange : s.cycles ≤ 8
  breakClear : s.flag .b = false

/-- M, the operand that an instruction dispatched in `s` consumes (R84, R59): A in IMP, the immediate byte in IMM, else the
byte at the effective address. -/
def operandOf (m : Operand) (s : State) : Byte :=
  match m with
  | .imp => s.a
  | .imm i => i
  | m => s.read (effectiveAddress m s)

/-- Every byte of memory reads as before. -/
def MemoryKept (s t : State) : Prop := ∀ a : Addr, t.read a = s.read a

/-- The byte at `w` is `v`, and every other byte reads as before. -/
def OneByteStored (w : Addr) (v : Byte) (s t : State) : Prop :=
  t.read w = v ∧ ∀ a : Addr, a ≠ w → t.read a = s.read a

/-- A, X, Y and SP are as before. -/
def RegistersKept (s t : State) : Prop := t.a = s.a ∧ t.x = s.x ∧ t.y = s.y ∧ t.sp = s.sp

/-- Every flag outside the list is as before, U apart, which every dispatch forces to 1 (R22, R29). -/
def FlagsKeptExcept (written : List Flag) (s t : State) : Prop :=
  ∀ f : Flag, f ∉ written → f ≠ .u → t.flag f = s.flag f

/-- Z and N come from `v` (R27). -/
def ZNFrom (v : Byte) (t : State) : Prop := t.flag .z = (v == 0) ∧ t.flag .n = v.getLsbD 7

/-- What WriteBack leaves (R85): in IMP, A is `v` and memory is as before; else the byte at the effective address is `v`,
and A and every other byte are as before. -/
def WrittenBack (m : Operand) (v : Byte) (s t : State) : Prop :=
  if m = .imp then t.a = v ∧ MemoryKept s t
  else t.a = s.a ∧ OneByteStored (effectiveAddress m s) v s t

/-- The SR bits that an instruction writes, by its row of the table in R30. U is forced for every instruction. -/
def flagsWritten : Mnemonic → List Flag
  | .adc | .sbc => [.n, .v, .z, .c]
  | .and | .ora | .eor => [.n, .z]
  | .cmp | .cpx | .cpy => [.n, .z, .c]
  | .bit => [.n, .v, .z]
  | .asl | .lsr | .rol | .ror => [.n, .z, .c]
  | .inc | .dec | .inx | .dex | .iny | .dey => [.n, .z]
  | .lda | .ldx | .ldy => [.n, .z]
  | .tax | .tay | .txa | .tya | .tsx => [.n, .z]
  | .pla => [.n, .z]
  | .plp | .rti => [.n, .v, .b, .d, .i, .z, .c]
  | .brk => [.i]
  | .clc | .sec => [.c]
  | .cli | .sei => [.i]
  | .clv => [.v]
  | .cld | .sed => [.d]
  | .sta | .stx | .sty | .txs | .pha | .php | .jmp | .jsr | .rts => []
  | .bpl | .bmi | .bvc | .bvs | .bcc | .bcs | .bne | .beq => []
  | .nop | .xxx => []

/-- Whether an instruction writes A (R15): the shifts and rotates in their IMP form only. -/
def writesA (i : Instr) : Bool :=
  match i.mnemonic with
  | .adc | .sbc | .and | .ora | .eor | .lda | .txa | .tya | .pla => true
  | .asl | .lsr | .rol | .ror => i.operand.mode == .imp
  | _ => false

/-- Whether an instruction writes X (R16). -/
def writesX : Mnemonic → Bool
  | .ldx | .tax | .tsx | .inx | .dex => true
  | _ => false

/-- Whether an instruction writes Y (R17). -/
def writesY : Mnemonic → Bool
  | .ldy | .tay | .iny | .dey => true
  | _ => false

/-- Whether an instruction writes SP (R20): the users of the push and pull protocol, and TXS. -/
def writesSp : Mnemonic → Bool
  | .pha | .php | .pla | .plp | .jsr | .rts | .rti | .brk | .txs => true
  | _ => false

/-- Whether an instruction transfers control (R18). -/
def transfersControl : Mnemonic → Bool
  | .bpl | .bmi | .bvc | .bvs | .bcc | .bcs | .bne | .beq => true
  | .jmp | .jsr | .rts | .rti | .brk => true
  | _ => false

/-- Whether an instruction stores to memory: the stores, INC and DEC, the pushes, and the shifts and rotates in their
memory forms (R50.4, R85). -/
def storesToMemory (i : Instr) : Bool :=
  match i.mnemonic with
  | .sta | .stx | .sty | .inc | .dec | .pha | .php | .jsr | .brk => true
  | .asl | .lsr | .rol | .ror => i.operand.mode != .imp
  | _ => false

/-- Two states that agree on everything a program can read, and on the bus: all but the scratch fields, the latched opcode
and `cycles` (R31, R32). -/
def SameArchitecture (s t : State) : Prop := debugPort s = debugPort t ∧ s.mem = t.mem

/-- The flags of a compare of the register value `r` with `m`, as integers (R94): C is `r >= m`, Z equality, N bit 7 of
the difference mod 2^8. -/
def Compared (r m : Byte) (t : State) : Prop :=
  t.flag .c = decide (m.toNat ≤ r.toNat) ∧ t.flag .z = decide (r.toNat = m.toNat) ∧
    t.flag .n = decide (128 ≤ (r.toNat + 256 - m.toNat) % 256)

/-- The dispatch of the branch `i` with displacement `r` (R124): it goes to the target when `taken`, else to the next
instruction, with `bcyc` 0, 1 or 2 beside its base count, and changes nothing else a program can read. -/
def Branches (i : Instr) (r : Byte) (taken : Bool) (s : State) : Prop :=
  ∃ t, exec i s = .next t ∧
    (t.pc.toNat : Int) = (s.pc.toNat + 2 + if taken then r.toInt else 0) % 65536 ∧
    t.cycles = baseCycles i +
      (if taken then if t.pc.toNat / 256 = (s.pc.toNat + 2) % 65536 / 256 then 1 else 2 else 0) ∧
    RegistersKept s t ∧ FlagsKeptExcept [] s t ∧ MemoryKept s t

/-- An instruction of one byte that changes A, X, Y, SP and memory not at all, and SR only as `flag` says (R138 to R146). -/
def SetsOnly (i : Instr) (flags : State → Prop) (written : List Flag) (s : State) : Prop :=
  ∃ t, exec i s = .next t ∧ flags t ∧ t.pc = s.pc + 1 ∧
    RegistersKept s t ∧ FlagsKeptExcept written s t ∧ MemoryKept s t

end Sys2Proof.Machine
end

