-- ==== Sys2Proof/Certificates/Slice0/Obligations.lean ====
section
/-! DEFINITION. The statements for the provers. `exec i s` is one whole dispatch (30_encoding.md R68) at an instruction
boundary; `step` is one tick (70_reset_and_hazards.md R165). -/

open Sys2Proof Sys2Proof.Machine

/-! ### Encoding (30_encoding.md) -/

/-- R57, R58, R61: the bytes of every well-formed instruction, whatever follows them, decode to that instruction with every
operand bit, and as many bytes are consumed as its mode says. The map of bytes is the spec's own choice (D18). -/
def Obligations.DecodeOfEncodeIsTheInstruction : Prop :=
  ∀ (i : Instr) (rest : List Byte), i.WellFormed →
    ∃ bs, encode i = some bs ∧ bs.length = i.length ∧ decode (bs ++ rest) = .ok (i, rest)

/-- R66, R67: whatever decodes is a well-formed instruction, and its encoding is the very bytes consumed: each byte string
has one meaning. -/
def Obligations.DecodedBytesAreTheEncoding : Prop :=
  ∀ (bs rest : List Byte) (i : Instr), decode bs = .ok (i, rest) →
    i.WellFormed ∧ ∃ used, encode i = some used ∧ bs = used ++ rest

/-- R65, R66: every opcode byte with two bytes after it decodes, to an instruction that has that opcode byte; it is the
illegal-opcode no-op exactly for the 105 distinct bytes of R65, and it then carries that byte. -/
def Obligations.EveryOpcodeByteDecodes : Prop :=
  (illegalOpcodes.length = 105 ∧ illegalOpcodes.Nodup) ∧
  ∀ (op b1 b2 : Byte) (tail : List Byte), ∃ i rest,
    decode (op :: b1 :: b2 :: tail) = .ok (i, rest) ∧ i.opcodeByte = some op ∧
    (op ∈ illegalOpcodes → i = .xxx op) ∧ (op ∉ illegalOpcodes → i.mnemonic ≠ .xxx)

/-- R64, R69: words written out from the spec's encodings decode to the instructions they stand for, one or more in each
family. -/
def Obligations.SampleWordsDecode : Prop :=
  decode [0xA9, 0x05] = .ok (.lda (.imm 0x05), []) ∧
  decode [0x69, 0x02] = .ok (.adc (.imm 0x02), []) ∧
  decode [0x4C, 0x00, 0x02] = .ok (.jmp (.abs 0x0200), []) ∧
  decode [0x6C, 0x34, 0x12] = .ok (.jmp (.ind 0x1234), []) ∧
  decode [0xD0, 0xF9] = .ok (.bne 0xF9, []) ∧
  decode [0x0A] = .ok (.asl .imp, []) ∧
  decode [0xA1, 0x20] = .ok (.lda (.izx 0x20), []) ∧
  decode [0xB1, 0x20] = .ok (.lda (.izy 0x20), []) ∧
  decode [0xB6, 0x10] = .ok (.ldx (.zpy 0x10), []) ∧
  decode [0xBD, 0x34, 0x12] = .ok (.lda (.abx 0x1234), []) ∧
  decode [0x08] = .ok (.php, []) ∧
  decode [0x18] = .ok (.clc, []) ∧
  decode [0x02, 0x05] = .ok (.xxx 0x02, [0x05])

/-! ### The tick engine (70_reset_and_hazards.md) -/

/-- R165, R68: an Idle tick runs exactly the instruction that the bytes at PC decode to, then counts `cycles` down by one;
a Busy tick changes `cycles` only and makes no bus access. -/
def Obligations.TickRunsTheDecodedInstruction : Prop :=
  (∀ (s : State) (i : Instr) (rest : List Byte), s.cycles = 0 →
    decode [s.read s.pc, s.read (s.pc + 1), s.read (s.pc + 2)] = .ok (i, rest) →
    i.WellFormed ∧
    ∀ t, exec i s = .next t → step s = .next { t with cycles := t.cycles - 1 }) ∧
  (∀ s : State, s.cycles ≠ 0 →
    step s = .next { s with cycles := s.cycles - 1 } ∧ tickAccesses s = [])

/-- R147, R66: every tick of every state answers a next state: the core raises nothing and refuses nothing. -/
def Obligations.EveryTickAnswersNext : Prop :=
  ∀ s : State, ∃ t, step s = .next t

/-- R66, R147: every well-formed instruction completes in every state, whatever the operands; and a term that is no row of
the opcode table is refused (log 9, the model's own). -/
def Obligations.EveryInstructionCompletes : Prop :=
  ∀ (i : Instr) (s : State),
    (i.WellFormed → ∃ t, exec i s = .next t) ∧ (¬ i.WellFormed → exec i s = .refused .illFormed)

/-- R166 (an inference the spec marks as its own): from an Idle state, the dispatch and the ticks it takes, as many as the
count it sets, give the state of the dispatch with the engine Idle again; `runInstruction` is that run. -/
def Obligations.InstructionTakesItsCycles : Prop :=
  ∀ s t : State, s.cycles = 0 → exec (fetchInstr s) s = .next t →
    runTicks t.cycles s = .next { t with cycles := 0 } ∧ runInstruction s = .next { t with cycles := 0 }

/-- R32, R169: a dispatch sets a count from 1 to 8, and at most 7 for a documented opcode. -/
def Obligations.DispatchCyclesInRange : Prop :=
  ∀ (i : Instr) (s t : State), exec i s = .next t →
    1 ≤ t.cycles ∧ t.cycles ≤ 8 ∧ (i.mnemonic ≠ .xxx → t.cycles ≤ 7)

/-- R167, R168 (the spec's own decision D14): an instruction that is no branch takes its base count, and one more exactly
when it is of the penalty class, in ABX, ABY or IZY, and its effective address lies in another page than the base. -/
def Obligations.PageCrossingCostsOneCycle : Prop :=
  ∀ (i : Instr) (s t : State), exec i s = .next t → i.operand.mode ≠ .rel →
    t.cycles = baseCycles i +
      if i.mnemonic ∈ [.adc, .and, .cmp, .eor, .lda, .ldx, .ldy, .ora, .sbc] ∧
          i.operand.mode ∈ [.abx, .aby, .izy] ∧
          (effectiveAddress i.operand s).toNat / 256 ≠ (baseAddress i.operand s).toNat / 256
      then 1 else 0

/-! ### Invariants -/

/-- R23, R32, R36: every tick keeps the invariant: canonical bus contents, `cycles` in range, the stored B at 0. The
canonical form is the model's; B at 0 rests on the spec's decisions D8 to D10. -/
def Obligations.StepKeepsInvariant : Prop :=
  ∀ s t : State, s.Inv → step s = .next t → t.Inv

/-- R35: the state after reset has the invariant. -/
def Obligations.ResetHasInvariant : Prop := State.reset.Inv

/-- R171, R52: any sequence of host actions (ticks, resets with any parameters, bus writes at any address) answers a next
state and keeps the invariant. -/
def Obligations.HostActionsKeepInvariant : Prop :=
  ∀ (acts : List HostAction) (s : State), s.Inv → ∃ t, hostRun acts s = .next t ∧ t.Inv

/-- R22: U is 1 when an instruction's rule runs and after every dispatch, whatever the instruction wrote; once 1, every
tick keeps it; reset clears it, and the ticks between a reset and the first dispatch leave it. -/
def Obligations.UnusedFlagForcedByDispatch : Prop :=
  (∀ (op : Byte) (m : Operand) (s : State), (ruleState op m s).flag .u = true) ∧
  (∀ (i : Instr) (s t : State), exec i s = .next t → t.flag .u = true) ∧
  (∀ s t : State, s.flag .u = true → step s = .next t → t.flag .u = true) ∧
  (∀ (p : ResetParams) (s : State), (hostReset p s).flag .u = false) ∧
  (∀ s t : State, s.cycles ≠ 0 → step s = .next t → t.flag .u = s.flag .u)

/-! ### What each instruction leaves alone -/

/-- R29, R30 (the spec's own reading D20): an instruction leaves every flag outside its row of R30 unchanged, U apart. -/
def Obligations.OnlyListedFlagsChange : Prop :=
  ∀ (i : Instr) (s t : State), exec i s = .next t → FlagsKeptExcept (flagsWritten i.mnemonic) s t

/-- R15, R16, R17, R20: A, X, Y and SP change only by the instructions that these rules list. -/
def Obligations.OnlyListedRegistersChange : Prop :=
  ∀ (i : Instr) (s t : State), exec i s = .next t →
    (writesA i = false → t.a = s.a) ∧ (writesX i.mnemonic = false → t.x = s.x) ∧
    (writesY i.mnemonic = false → t.y = s.y) ∧ (writesSp i.mnemonic = false → t.sp = s.sp)

/-- R18, R19: every instruction but the control transfers leaves PC just past its own bytes, mod 2^16. -/
def Obligations.PcMovesPastTheInstruction : Prop :=
  ∀ (i : Instr) (s t : State), exec i s = .next t → transfersControl i.mnemonic = false →
    t.pc.toNat = (s.pc.toNat + i.length) % 65536

/-- R50, R84, R85: a form that stores nothing leaves every byte of memory as it was. -/
def Obligations.FormsThatStoreNothingKeepMemory : Prop :=
  ∀ (i : Instr) (s t : State), exec i s = .next t → storesToMemory i = false → MemoryKept s t

/-- R31 (an inference the spec marks as its own): what a dispatch does to registers, memory and `cycles` does not depend on
the scratch fields, the latched opcode or `cycles` on entry. -/
def Obligations.ScratchFieldsAreNotRead : Prop :=
  ∀ (i : Instr) (s s' t : State), SameArchitecture s s' → exec i s = .next t →
    ∃ t', exec i s' = .next t' ∧ SameArchitecture t t' ∧ t'.cycles = t.cycles

/-- R24, R25, R88 (the spec's own decisions D7, D12): D and I influence nothing: an instruction that neither writes the flag
nor pushes SR does the same whatever the flag is. -/
def Obligations.DecimalAndInterruptFlagsAreInert : Prop :=
  ∀ (i : Instr) (f : Flag) (b : Bool) (s t : State), f ∈ [.d, .i] → f ∉ flagsWritten i.mnemonic →
    i.mnemonic ∉ [.php, .brk] → exec i s = .next t → exec i (s.setFlag f b) = .next (t.setFlag f b)

/-! ### The bus (20_memory.md) -/

/-- R36: after any sequence of writes, an address of the space reads as the last byte written to it, or as before if
nothing wrote it. R37: outside the space a read gives 0 and a write does nothing. -/
def Obligations.BusReadsTheLastWrite : Prop :=
  (∀ (m : Memory) (writes : List (Nat × Byte)) (a : Nat), a < 65536 →
    (writes.foldl (fun m w => m.write w.1 w.2) m).read a =
      ((writes.reverse.find? (fun w => w.1 == a)).map (·.2)).getD (m.read a)) ∧
  (∀ (m : Memory) (a : Nat) (v : Byte), 65536 ≤ a → m.read a = 0 ∧ m.write a v = m)

/-- The model's own form of the bus contents (R36): every write keeps it, and two memories in it that read alike everywhere
are equal. -/
def Obligations.CanonicalMemoryIsUnique : Prop :=
  (∀ (m : Memory) (a : Nat) (v : Byte), m.wf = true → (m.write a v).wf = true) ∧
  (∀ m m' : Memory, m.wf = true → m'.wf = true → (∀ a, a < 65536 → m.read a = m'.read a) → m = m')

/-- R50, R51: the memory after a dispatch is the memory before it with the writes of its access list, in order, and nothing
else. -/
def Obligations.DispatchWritesAreItsAccessList : Prop :=
  ∀ (i : Instr) (s t : State), exec i s = .next t → t.mem = applyAccesses (dispatchAccesses i s) s.mem

/-- R50, R86: a dispatch depends on memory only through the bytes its access list reads: on any other memory that agrees
there, it gives the same state but for the bytes it does not touch. -/
def Obligations.DispatchDependsOnlyOnBytesItReads : Prop :=
  ∀ (i : Instr) (s t : State) (m' : Memory), exec i s = .next t →
    (∀ a ∈ readAddrs (dispatchAccesses i s), m'.read a.toNat = s.mem.read a.toNat) →
    exec i { s with mem := m' } = .next { t with mem := applyAccesses (dispatchAccesses i s) m' }

/-- R36, R45, R51: every read in a tick's access list returns the byte that memory held when the tick began. -/
def Obligations.TickReadsReturnMemory : Prop :=
  ∀ (s : State) (a : Addr) (v : Byte), BusAccess.read a v ∈ tickAccesses s → v = s.read a

/-- R86: the addresses that each mode reads before the instruction's rule runs, in order, the opcode read not counted. -/
def Obligations.ModeReadsFollowTheTable : Prop :=
  ∀ (m : Operand) (op : Byte) (s : State),
    readAddrs (streamReads (s.pc + 1) (modeStream m) ++ pointerReads m (prologue op s)) =
      match m with
      | .imp | .imm _ => []
      | .rel _ | .zp0 _ | .zpx _ | .zpy _ => [s.pc + 1]
      | .abs _ | .abx _ | .aby _ => [s.pc + 1, s.pc + 1 + 1]
      | .ind p => [s.pc + 1, s.pc + 1 + 1, p, word (hiByte p) (loByte p + 1)]
      | .izx p => [s.pc + 1, zext16 (p + s.x), zext16 (p + s.x + 1)]
      | .izy p => [s.pc + 1, zext16 p, zext16 (p + 1)]

/-! ### The stack protocol -/

/-- R46, R47, R48: a push writes at 0x0100 + SP and then decrements SP mod 2^8; a pull increments SP mod 2^8 and then reads
at 0x0100 + SP; nothing else changes, nothing is raised, and the address stays in page 1. -/
def Obligations.PushAndPullFollowTheProtocol : Prop :=
  ∀ (v : Byte) (s : State),
    OneByteStored (stackAddr s.sp) v s (push v s) ∧
    (push v s).sp.toNat = (s.sp.toNat + 255) % 256 ∧
    (pull s).1 = s.read (stackAddr (pull s).2.sp) ∧
    (pull s).2.sp.toNat = (s.sp.toNat + 1) % 256 ∧
    (pull s).2.mem = s.mem ∧
    (stackAddr s.sp).toNat = 0x0100 + s.sp.toNat ∧
    (∀ t ∈ [push v s, (pull s).2], t.a = s.a ∧ t.x = s.x ∧ t.y = s.y ∧ t.sr = s.sr ∧ t.pc = s.pc)

/-- R49: a word is pushed high byte first, so it lies little-endian with its low byte at 0x0100 + ((SP + 1) mod 2^8) after
the push; it is pulled low byte first, and a pull after a push gives it back with SP as before. -/
def Obligations.WordsArePushedHighByteFirst : Prop :=
  ∀ (w : Addr) (s : State),
    pushWord w s = push (loByte w) (push (hiByte w) s) ∧
    (pushWord w s).read (stackAddr s.sp) = hiByte w ∧
    (pushWord w s).read (stackAddr ((pushWord w s).sp + 1)) = loByte w ∧
    (pullWord s).1 = word (s.read (stackAddr (s.sp + 1 + 1))) (s.read (stackAddr (s.sp + 1))) ∧
    (pullWord (pushWord w s)).1 = w ∧ (pullWord (pushWord w s)).2.sp = s.sp

/-! ### Addressing modes (40_addressing.md) -/

/-- R74, R75, R76, R77: what ZEROPAGE, ZEROPAGE,X, ZEROPAGE,Y and ABSOLUTE put into `addressAbs`, with no crossing signal,
and how far they move PC. `s` is the state on entry to the mode; `z` and `a` are any operand bytes, so those at PC as well. -/
def Obligations.ZeroPageAndAbsoluteAddresses : Prop :=
  ∀ (s : State) (z : Byte) (a : Addr),
    (resolve (.zp0 z) s).addressAbs.toNat = z.toNat ∧
    (resolve (.zpx z) s).addressAbs.toNat = (z.toNat + s.x.toNat) % 256 ∧
    (resolve (.zpy z) s).addressAbs.toNat = (z.toNat + s.y.toNat) % 256 ∧
    (resolve (.abs a) s).addressAbs = a ∧
    (∀ m ∈ [Operand.zp0 z, .zpx z, .zpy z], (resolve m s).pc.toNat = (s.pc.toNat + 1) % 65536 ∧ crossed m s = false) ∧
    (resolve (.abs a) s).pc.toNat = (s.pc.toNat + 2) % 65536 ∧ crossed (.abs a) s = false

/-- R78, R79, R82, R83: the indexed sums of ABX, ABY and IZY are full 16-bit additions (the spec's own choice D4), and the
signal says exactly whether the sum left the page of the base. `s` is the state on entry to the mode. -/
def Obligations.IndexedAddressesAndCrossing : Prop :=
  ∀ (s : State) (a : Addr) (p : Byte),
    (resolve (.abx a) s).addressAbs.toNat = (a.toNat + s.x.toNat) % 65536 ∧
    (resolve (.aby a) s).addressAbs.toNat = (a.toNat + s.y.toNat) % 65536 ∧
    (resolve (.izy p) s).addressAbs.toNat = ((zeroPageWord s p).toNat + s.y.toNat) % 65536 ∧
    crossed (.abx a) s = decide ((a.toNat + s.x.toNat) % 65536 / 256 ≠ a.toNat / 256) ∧
    crossed (.aby a) s = decide ((a.toNat + s.y.toNat) % 65536 / 256 ≠ a.toNat / 256) ∧
    crossed (.izy p) s =
      decide (((zeroPageWord s p).toNat + s.y.toNat) % 65536 / 256 ≠ (zeroPageWord s p).toNat / 256) ∧
    (resolve (.abx a) s).pc.toNat = (s.pc.toNat + 2) % 65536 ∧
    (resolve (.aby a) s).pc.toNat = (s.pc.toNat + 2) % 65536 ∧
    (resolve (.izy p) s).pc.toNat = (s.pc.toNat + 1) % 65536

/-- R80: INDIRECT reads the target's low byte at the pointer and its high byte at the next address of the same page, so a
pointer that ends in 0xFF takes it from the start of its own page. `s` is the state on entry to the mode. -/
def Obligations.IndirectReproducesThePageWrapDefect : Prop :=
  ∀ (s : State) (p : Addr),
    (resolve (.ind p) s).addressAbs.toNat =
      (s.mem.read (if p.toNat % 256 = 255 then p.toNat - 255 else p.toNat + 1)).toNat * 256 +
        (s.mem.read p.toNat).toNat ∧
    (resolve (.ind p) s).pc.toNat = (s.pc.toNat + 2) % 65536 ∧ crossed (.ind p) s = false

/-- R81, R82: both bytes of a zero-page pointer come from page 0, the second from the next address mod 2^8 (the spec's own
choice D5). `s` is the state on entry to the mode. -/
def Obligations.ZeroPagePointersStayInPageZero : Prop :=
  ∀ (s : State) (p : Byte),
    (resolve (.izx p) s).addressAbs.toNat =
      (s.mem.read ((p.toNat + s.x.toNat + 1) % 256)).toNat * 256 + (s.mem.read ((p.toNat + s.x.toNat) % 256)).toNat ∧
    (resolve (.izx p) s).pc.toNat = (s.pc.toNat + 1) % 65536 ∧ crossed (.izx p) s = false ∧
    (zeroPageWord s p).toNat =
      (s.mem.read ((p.toNat + 1) % 256)).toNat * 256 + (s.mem.read p.toNat).toNat

/-- R72, R73, R59: IMMEDIATE takes the address of byte 1 and reads no byte itself, and in a tick the operand an IMMEDIATE instruction uses is the
byte that memory holds there; RELATIVE sign-extends its byte. Both move PC by 1 and signal no crossing. -/
def Obligations.ImmediateAndRelativeOperands : Prop :=
  (∀ (s : State) (b : Byte),
    (resolve (.imm b) s).addressAbs = s.pc ∧ (resolve (.imm b) s).pc.toNat = (s.pc.toNat + 1) % 65536 ∧
    crossed (.imm b) s = false ∧ modeStream (.imm b) = [] ∧ pointerReads (.imm b) s = [] ∧
    ((resolve (.rel b) s).addressRel.toNat : Int) = b.toInt % 65536 ∧
    (resolve (.rel b) s).pc.toNat = (s.pc.toNat + 1) % 65536 ∧ crossed (.rel b) s = false) ∧
  (∀ (s : State) (op b : Byte), (fetchInstr s).operand = .imm b →
    (fetch (.imm b) (ruleState op (.imm b) s)).fetched = s.read (ruleState op (.imm b) s).addressAbs)

/-! ### ALU (41_alu.md) -/

/-- R89: ADC in every mode it has: the result, C, Z, V, N, and nothing else. -/
def Obligations.AdcAddsWithCarry : Prop :=
  ∀ (m : Operand) (s : State), (Instr.adc m).WellFormed →
    let sum := s.a.toNat + (operandOf m s).toNat + (s.flag .c).toNat
    ∃ t, exec (.adc m) s = .next t ∧
      t.a.toNat = sum % 256 ∧ t.flag .c = decide (255 < sum) ∧ t.flag .z = decide (sum % 256 = 0) ∧
      t.flag .v = (~~~(s.a ^^^ operandOf m s) &&& (s.a ^^^ t.a)).getLsbD 7 ∧ t.flag .n = sum.testBit 7 ∧
      t.x = s.x ∧ t.y = s.y ∧ t.sp = s.sp ∧ FlagsKeptExcept [.n, .v, .z, .c] s t ∧ MemoryKept s t

/-- R90: SBC in every mode it has is ADC with M replaced by M ^ 0xFF: the result, C, Z, V, N, and nothing else. -/
def Obligations.SbcAddsTheComplement : Prop :=
  ∀ (m : Operand) (s : State), (Instr.sbc m).WellFormed →
    let w := operandOf m s ^^^ 0xFF
    let sum := s.a.toNat + w.toNat + (s.flag .c).toNat
    ∃ t, exec (.sbc m) s = .next t ∧
      t.a.toNat = sum % 256 ∧ t.flag .c = decide (255 < sum) ∧ t.flag .z = decide (sum % 256 = 0) ∧
      t.flag .v = (~~~(s.a ^^^ w) &&& (s.a ^^^ t.a)).getLsbD 7 ∧ t.flag .n = sum.testBit 7 ∧
      t.x = s.x ∧ t.y = s.y ∧ t.sp = s.sp ∧ FlagsKeptExcept [.n, .v, .z, .c] s t ∧ MemoryKept s t

/-- R87, R90 (its corner case is an inference the spec marks as its own): V of ADC and SBC says exactly that the signed
result does not fit, and SBC computes A - M - (1 - C) mod 2^8 with C set exactly when nothing is borrowed. -/
def Obligations.OverflowAndBorrowAreArithmetic : Prop :=
  ∀ (m : Operand) (s : State),
    (∀ t, exec (.adc m) s = .next t →
      let signed := s.a.toInt + (operandOf m s).toInt + (s.flag .c).toNat
      t.flag .v = decide (signed < -128 ∨ 127 < signed)) ∧
    (∀ t, exec (.sbc m) s = .next t →
      let signed := s.a.toInt - (operandOf m s).toInt - (1 - (s.flag .c).toNat)
      let diff : Int := s.a.toNat - (operandOf m s).toNat - (1 - (s.flag .c).toNat)
      t.flag .v = decide (signed < -128 ∨ 127 < signed) ∧
      (t.a.toNat : Int) = diff % 256 ∧ t.flag .c = decide (0 ≤ diff))

/-- R90's quoted property of the source: ADC of M with C = 0 and then SBC of M with C = 1 restores A. -/
def Obligations.SbcUndoesAdc : Prop :=
  ∀ (v : Byte) (s : State), s.flag .c = false →
    ∃ t u, exec (.adc (.imm v)) s = .next t ∧ exec (.sbc (.imm v)) (t.setFlag .c true) = .next u ∧ u.a = s.a

/-- R91, R92, R93: AND, ORA and EOR in every mode they have: A, Z, N, and nothing else. -/
def Obligations.LogicOperatesBitwiseOnA : Prop :=
  ∀ (m : Operand) (s : State),
    ((Instr.and m).WellFormed → ∃ t, exec (.and m) s = .next t ∧ t.a = s.a &&& operandOf m s ∧ ZNFrom t.a t ∧
      t.x = s.x ∧ t.y = s.y ∧ t.sp = s.sp ∧ FlagsKeptExcept [.n, .z] s t ∧ MemoryKept s t) ∧
    ((Instr.ora m).WellFormed → ∃ t, exec (.ora m) s = .next t ∧ t.a = s.a ||| operandOf m s ∧ ZNFrom t.a t ∧
      t.x = s.x ∧ t.y = s.y ∧ t.sp = s.sp ∧ FlagsKeptExcept [.n, .z] s t ∧ MemoryKept s t) ∧
    ((Instr.eor m).WellFormed → ∃ t, exec (.eor m) s = .next t ∧ t.a = s.a ^^^ operandOf m s ∧ ZNFrom t.a t ∧
      t.x = s.x ∧ t.y = s.y ∧ t.sp = s.sp ∧ FlagsKeptExcept [.n, .z] s t ∧ MemoryKept s t)

/-- R94, R95, R96: CMP, CPX and CPY in every mode they have: C, Z, N from the unsigned comparison, and nothing else. -/
def Obligations.ComparesSetCarryZeroNegative : Prop :=
  ∀ (m : Operand) (s : State),
    ((Instr.cmp m).WellFormed → ∃ t, exec (.cmp m) s = .next t ∧ Compared s.a (operandOf m s) t ∧
      RegistersKept s t ∧ FlagsKeptExcept [.n, .z, .c] s t ∧ MemoryKept s t) ∧
    ((Instr.cpx m).WellFormed → ∃ t, exec (.cpx m) s = .next t ∧ Compared s.x (operandOf m s) t ∧
      RegistersKept s t ∧ FlagsKeptExcept [.n, .z, .c] s t ∧ MemoryKept s t) ∧
    ((Instr.cpy m).WellFormed → ∃ t, exec (.cpy m) s = .next t ∧ Compared s.y (operandOf m s) t ∧
      RegistersKept s t ∧ FlagsKeptExcept [.n, .z, .c] s t ∧ MemoryKept s t)

/-- R97: BIT in both its modes: Z from A & M, N and V from bits 7 and 6 of M itself, and nothing else. -/
def Obligations.BitTestsMemoryBits : Prop :=
  ∀ (m : Operand) (s : State), (Instr.bit m).WellFormed →
    ∃ t, exec (.bit m) s = .next t ∧
      t.flag .z = decide (s.a &&& operandOf m s = 0) ∧
      t.flag .n = (operandOf m s).getLsbD 7 ∧ t.flag .v = (operandOf m s).getLsbD 6 ∧
      RegistersKept s t ∧ FlagsKeptExcept [.n, .v, .z] s t ∧ MemoryKept s t

/-! ### Shifts and counts (42_shift_incdec.md) -/

/-- R98, R99, R85: ASL and LSR on A and on memory: the result, C from the bit shifted out, Z and N, and nothing else. -/
def Obligations.ShiftsMoveOneBit : Prop :=
  ∀ (m : Operand) (s : State),
    ((Instr.asl m).WellFormed → ∃ t, exec (.asl m) s = .next t ∧
      let r : Byte := BitVec.ofNat 8 (2 * (operandOf m s).toNat)
      WrittenBack m r s t ∧ ZNFrom r t ∧ t.flag .c = decide (128 ≤ (operandOf m s).toNat) ∧
      t.x = s.x ∧ t.y = s.y ∧ t.sp = s.sp ∧ FlagsKeptExcept [.n, .z, .c] s t) ∧
    ((Instr.lsr m).WellFormed → ∃ t, exec (.lsr m) s = .next t ∧
      let r : Byte := BitVec.ofNat 8 ((operandOf m s).toNat / 2)
      WrittenBack m r s t ∧ ZNFrom r t ∧ t.flag .c = decide ((operandOf m s).toNat % 2 = 1) ∧
      t.x = s.x ∧ t.y = s.y ∧ t.sp = s.sp ∧ FlagsKeptExcept [.n, .z, .c] s t)

/-- R100, R101, R85: ROL and ROR on A and on memory: the old carry enters at the vacated bit, C takes the bit shifted out, Z
and N follow the result, and nothing else changes. -/
def Obligations.RotatesMoveOneBitThroughCarry : Prop :=
  ∀ (m : Operand) (s : State),
    ((Instr.rol m).WellFormed → ∃ t, exec (.rol m) s = .next t ∧
      let r : Byte := BitVec.ofNat 8 (2 * (operandOf m s).toNat + (s.flag .c).toNat)
      WrittenBack m r s t ∧ ZNFrom r t ∧ t.flag .c = decide (128 ≤ (operandOf m s).toNat) ∧
      t.x = s.x ∧ t.y = s.y ∧ t.sp = s.sp ∧ FlagsKeptExcept [.n, .z, .c] s t) ∧
    ((Instr.ror m).WellFormed → ∃ t, exec (.ror m) s = .next t ∧
      let r : Byte := BitVec.ofNat 8 (128 * (s.flag .c).toNat + (operandOf m s).toNat / 2)
      WrittenBack m r s t ∧ ZNFrom r t ∧ t.flag .c = decide ((operandOf m s).toNat % 2 = 1) ∧
      t.x = s.x ∧ t.y = s.y ∧ t.sp = s.sp ∧ FlagsKeptExcept [.n, .z, .c] s t)

/-- R102, R103: INC and DEC in every mode they have: the byte at the effective address counts by one mod 2^8, Z and N follow
it, and nothing else changes. -/
def Obligations.IncAndDecCountMemory : Prop :=
  ∀ (m : Operand) (s : State),
    ((Instr.inc m).WellFormed → ∃ t, exec (.inc m) s = .next t ∧
      let r : Byte := BitVec.ofNat 8 ((operandOf m s).toNat + 1)
      OneByteStored (effectiveAddress m s) r s t ∧ ZNFrom r t ∧ RegistersKept s t ∧ FlagsKeptExcept [.n, .z] s t) ∧
    ((Instr.dec m).WellFormed → ∃ t, exec (.dec m) s = .next t ∧
      let r : Byte := BitVec.ofNat 8 ((operandOf m s).toNat + 255)
      OneByteStored (effectiveAddress m s) r s t ∧ ZNFrom r t ∧ RegistersKept s t ∧ FlagsKeptExcept [.n, .z] s t)

/-- R104, R105, R106, R107: INX, DEX, INY and DEY count their register by one mod 2^8, set Z and N, and change nothing
else. -/
def Obligations.IndexRegistersCount : Prop :=
  ∀ s : State,
    (∃ t, exec .inx s = .next t ∧ t.x.toNat = (s.x.toNat + 1) % 256 ∧ ZNFrom t.x t ∧
      t.a = s.a ∧ t.y = s.y ∧ t.sp = s.sp ∧ FlagsKeptExcept [.n, .z] s t ∧ MemoryKept s t) ∧
    (∃ t, exec .dex s = .next t ∧ t.x.toNat = (s.x.toNat + 255) % 256 ∧ ZNFrom t.x t ∧
      t.a = s.a ∧ t.y = s.y ∧ t.sp = s.sp ∧ FlagsKeptExcept [.n, .z] s t ∧ MemoryKept s t) ∧
    (∃ t, exec .iny s = .next t ∧ t.y.toNat = (s.y.toNat + 1) % 256 ∧ ZNFrom t.y t ∧
      t.a = s.a ∧ t.x = s.x ∧ t.sp = s.sp ∧ FlagsKeptExcept [.n, .z] s t ∧ MemoryKept s t) ∧
    (∃ t, exec .dey s = .next t ∧ t.y.toNat = (s.y.toNat + 255) % 256 ∧ ZNFrom t.y t ∧
      t.a = s.a ∧ t.x = s.x ∧ t.sp = s.sp ∧ FlagsKeptExcept [.n, .z] s t ∧ MemoryKept s t)

/-! ### Loads, stores and transfers (43_load_store_transfer.md) -/

/-- R108, R109, R110: LDA, LDX and LDY in every mode they have: the register takes M, Z and N follow it, and nothing else
changes. -/
def Obligations.LoadsTakeTheOperand : Prop :=
  ∀ (m : Operand) (s : State),
    ((Instr.lda m).WellFormed → ∃ t, exec (.lda m) s = .next t ∧ t.a = operandOf m s ∧ ZNFrom t.a t ∧
      t.x = s.x ∧ t.y = s.y ∧ t.sp = s.sp ∧ FlagsKeptExcept [.n, .z] s t ∧ MemoryKept s t) ∧
    ((Instr.ldx m).WellFormed → ∃ t, exec (.ldx m) s = .next t ∧ t.x = operandOf m s ∧ ZNFrom t.x t ∧
      t.a = s.a ∧ t.y = s.y ∧ t.sp = s.sp ∧ FlagsKeptExcept [.n, .z] s t ∧ MemoryKept s t) ∧
    ((Instr.ldy m).WellFormed → ∃ t, exec (.ldy m) s = .next t ∧ t.y = operandOf m s ∧ ZNFrom t.y t ∧
      t.a = s.a ∧ t.x = s.x ∧ t.sp = s.sp ∧ FlagsKeptExcept [.n, .z] s t ∧ MemoryKept s t)

/-- R111, R112, R113: STA, STX and STY in every mode they have store the register at the effective address, change no
other byte, no register and no flag, and their rules read no byte. -/
def Obligations.StoresWriteOneByte : Prop :=
  ∀ (m : Operand) (s : State),
    ((Instr.sta m).WellFormed → ∃ t, exec (.sta m) s = .next t ∧ OneByteStored (effectiveAddress m s) s.a s t ∧
      RegistersKept s t ∧ FlagsKeptExcept [] s t ∧ readAddrs (ruleAccesses (.sta m) s) = []) ∧
    ((Instr.stx m).WellFormed → ∃ t, exec (.stx m) s = .next t ∧ OneByteStored (effectiveAddress m s) s.x s t ∧
      RegistersKept s t ∧ FlagsKeptExcept [] s t ∧ readAddrs (ruleAccesses (.stx m) s) = []) ∧
    ((Instr.sty m).WellFormed → ∃ t, exec (.sty m) s = .next t ∧ OneByteStored (effectiveAddress m s) s.y s t ∧
      RegistersKept s t ∧ FlagsKeptExcept [] s t ∧ readAddrs (ruleAccesses (.sty m) s) = [])

/-- R114, R115, R116, R117, R118, R119: the six transfers copy one register to another; all but TXS set Z and N from it; and
nothing else changes. -/
def Obligations.TransfersCopyOneRegister : Prop :=
  ∀ s : State,
    (∃ t, exec .tax s = .next t ∧ t.x = s.a ∧ ZNFrom s.a t ∧ t.a = s.a ∧ t.y = s.y ∧ t.sp = s.sp ∧
      FlagsKeptExcept [.n, .z] s t ∧ MemoryKept s t) ∧
    (∃ t, exec .tay s = .next t ∧ t.y = s.a ∧ ZNFrom s.a t ∧ t.a = s.a ∧ t.x = s.x ∧ t.sp = s.sp ∧
      FlagsKeptExcept [.n, .z] s t ∧ MemoryKept s t) ∧
    (∃ t, exec .txa s = .next t ∧ t.a = s.x ∧ ZNFrom s.x t ∧ t.x = s.x ∧ t.y = s.y ∧ t.sp = s.sp ∧
      FlagsKeptExcept [.n, .z] s t ∧ MemoryKept s t) ∧
    (∃ t, exec .tya s = .next t ∧ t.a = s.y ∧ ZNFrom s.y t ∧ t.x = s.x ∧ t.y = s.y ∧ t.sp = s.sp ∧
      FlagsKeptExcept [.n, .z] s t ∧ MemoryKept s t) ∧
    (∃ t, exec .tsx s = .next t ∧ t.x = s.sp ∧ ZNFrom s.sp t ∧ t.a = s.a ∧ t.y = s.y ∧ t.sp = s.sp ∧
      FlagsKeptExcept [.n, .z] s t ∧ MemoryKept s t) ∧
    (∃ t, exec .txs s = .next t ∧ t.sp = s.x ∧ t.a = s.a ∧ t.x = s.x ∧ t.y = s.y ∧
      FlagsKeptExcept [] s t ∧ MemoryKept s t)

/-! ### Stack instructions (44_stack.md) -/

/-- R120: PHA pushes A: the byte at 0x0100 + SP is A, SP drops by one mod 2^8, and nothing else changes. -/
def Obligations.PhaPushesTheAccumulator : Prop :=
  ∀ s : State, ∃ t, exec .pha s = .next t ∧ OneByteStored (stackAddr s.sp) s.a s t ∧
    t.sp.toNat = (s.sp.toNat + 255) % 256 ∧ t.a = s.a ∧ t.x = s.x ∧ t.y = s.y ∧ FlagsKeptExcept [] s t

/-- R121, R122, R123 (the spec's own decisions D8, D9, D11): PHP pushes SR with B and U set; PLA pulls A and sets Z and N; PLP
pulls SR with B cleared and U forced. -/
def Obligations.PhpPlaPlpMoveStatusAndAccumulator : Prop :=
  ∀ s : State,
    (∃ t, exec .php s = .next t ∧ OneByteStored (stackAddr s.sp) (s.sr ||| 0x30) s t ∧
      t.sp.toNat = (s.sp.toNat + 255) % 256 ∧ t.a = s.a ∧ t.x = s.x ∧ t.y = s.y ∧ FlagsKeptExcept [] s t) ∧
    (∃ t, exec .pla s = .next t ∧ t.a = s.read (stackAddr (s.sp + 1)) ∧ ZNFrom t.a t ∧
      t.sp.toNat = (s.sp.toNat + 1) % 256 ∧ t.x = s.x ∧ t.y = s.y ∧ FlagsKeptExcept [.n, .z] s t ∧
      MemoryKept s t) ∧
    (∃ t, exec .plp s = .next t ∧ t.sr = (s.read (stackAddr (s.sp + 1)) &&& 0xCF) ||| 0x20 ∧
      t.sp.toNat = (s.sp.toNat + 1) % 256 ∧ t.a = s.a ∧ t.x = s.x ∧ t.y = s.y ∧ MemoryKept s t)

/-- The source's round trips, quoted in R122, R135 and R151: PLA after PHA gives A back; RTS after JSR goes to the instruction
after the JSR; RTI after BRK goes to the BRK's address + 2 with the status that BRK found, B cleared and U set. Each
restores SP. -/
def Obligations.PushesAndPullsRoundTrip : Prop :=
  ∀ s : State,
    (∃ t u, exec .pha s = .next t ∧ exec .pla t = .next u ∧ u.a = s.a ∧ u.sp = s.sp) ∧
    (∀ a : Addr, ∃ t u, exec (.jsr a) s = .next t ∧ t.pc = a ∧ exec .rts t = .next u ∧
      u.pc.toNat = (s.pc.toNat + 3) % 65536 ∧ u.sp = s.sp) ∧
    (∃ t u, exec .brk s = .next t ∧ exec .rti t = .next u ∧ u.pc.toNat = (s.pc.toNat + 2) % 65536 ∧ u.sp = s.sp ∧
      u.sr = (s.sr &&& 0xEF) ||| 0x20)

/-! ### Control transfer (45_control.md) -/

/-- R124 to R132: the eight branches, taken and not taken, with their branch cycles beside the base count. -/
def Obligations.BranchesTestOneFlag : Prop :=
  ∀ (r : Byte) (s : State),
    Branches (.bpl r) r (!s.flag .n) s ∧ Branches (.bmi r) r (s.flag .n) s ∧
    Branches (.bvc r) r (!s.flag .v) s ∧ Branches (.bvs r) r (s.flag .v) s ∧
    Branches (.bcc r) r (!s.flag .c) s ∧ Branches (.bcs r) r (s.flag .c) s ∧
    Branches (.bne r) r (!s.flag .z) s ∧ Branches (.beq r) r (s.flag .z) s

/-- R133 and R80: JMP goes to its address in ABSOLUTE, and in INDIRECT to the word at its pointer, whose high byte comes from
the pointer's own page; it changes no register, flag or byte. -/
def Obligations.JmpGoesToItsTarget : Prop :=
  ∀ (a : Addr) (s : State),
    (∃ t, exec (.jmp (.abs a)) s = .next t ∧ t.pc = a ∧
      RegistersKept s t ∧ FlagsKeptExcept [] s t ∧ MemoryKept s t) ∧
    (∃ t, exec (.jmp (.ind a)) s = .next t ∧
      t.pc.toNat = (s.mem.read (if a.toNat % 256 = 255 then a.toNat - 255 else a.toNat + 1)).toNat * 256 +
        (s.mem.read a.toNat).toNat ∧
      RegistersKept s t ∧ FlagsKeptExcept [] s t ∧ MemoryKept s t)

/-- R134, R135: JSR pushes the address of its last byte, high byte first, and jumps; RTS pulls an address, low byte first, and
goes to the next one. Neither changes another register, a flag or another byte. -/
def Obligations.JsrAndRtsTransferControl : Prop :=
  ∀ (a : Addr) (s : State),
    (∃ t, exec (.jsr a) s = .next t ∧ t.pc = a ∧
      (t.read (stackAddr s.sp)).toNat = (s.pc.toNat + 2) % 65536 / 256 ∧
      (t.read (stackAddr (s.sp - 1))).toNat = (s.pc.toNat + 2) % 256 ∧
      (∀ b : Addr, b ≠ stackAddr s.sp → b ≠ stackAddr (s.sp - 1) → t.read b = s.read b) ∧
      t.sp.toNat = (s.sp.toNat + 254) % 256 ∧ t.a = s.a ∧ t.x = s.x ∧ t.y = s.y ∧ FlagsKeptExcept [] s t) ∧
    (∃ t, exec .rts s = .next t ∧
      t.pc.toNat = ((s.read (stackAddr (s.sp + 2))).toNat * 256 + (s.read (stackAddr (s.sp + 1))).toNat + 1) % 65536 ∧
      t.sp.toNat = (s.sp.toNat + 2) % 256 ∧ t.a = s.a ∧ t.x = s.x ∧ t.y = s.y ∧ FlagsKeptExcept [] s t ∧
      MemoryKept s t)

/-- R136, R150 (that I is set is the spec's own decision D10): BRK pushes its address + 2, high byte first, then SR with B and
U set, sets I, and takes PC from 0xFFFE/0xFFFF; SP drops by three, and nothing else changes. -/
def Obligations.BrkEntersTheTrap : Prop :=
  ∀ s : State, ∃ t, exec .brk s = .next t ∧
    (t.read (stackAddr s.sp)).toNat = (s.pc.toNat + 2) % 65536 / 256 ∧
    (t.read (stackAddr (s.sp - 1))).toNat = (s.pc.toNat + 2) % 256 ∧
    t.read (stackAddr (s.sp - 2)) = s.sr ||| 0x30 ∧
    (∀ b : Addr, b ≠ stackAddr s.sp → b ≠ stackAddr (s.sp - 1) → b ≠ stackAddr (s.sp - 2) → t.read b = s.read b) ∧
    t.flag .i = true ∧
    t.pc.toNat = (s.mem.read 0xFFFF).toNat * 256 + (s.mem.read 0xFFFE).toNat ∧
    t.sp.toNat = (s.sp.toNat + 253) % 256 ∧ t.a = s.a ∧ t.x = s.x ∧ t.y = s.y ∧ FlagsKeptExcept [.i] s t

/-- R137, R151 (the treatment of B and U is the spec's own decision D9): RTI pulls SR with B cleared and U forced, then PC, low
byte first, with no + 1; SP rises by three, and nothing else changes. -/
def Obligations.RtiReturnsFromTheTrap : Prop :=
  ∀ s : State, ∃ t, exec .rti s = .next t ∧
    t.sr = (s.read (stackAddr (s.sp + 1)) &&& 0xCF) ||| 0x20 ∧
    t.pc.toNat = (s.read (stackAddr (s.sp + 3))).toNat * 256 + (s.read (stackAddr (s.sp + 2))).toNat ∧
    t.sp.toNat = (s.sp.toNat + 3) % 256 ∧ t.a = s.a ∧ t.x = s.x ∧ t.y = s.y ∧ MemoryKept s t

/-! ### Flags, NOP, illegal opcodes (46_flags_nop.md) -/

/-- R138 to R144: each flag instruction sets or clears its one flag and changes nothing else. -/
def Obligations.FlagInstructionsWriteOneFlag : Prop :=
  ∀ s : State,
    SetsOnly .clc (fun t => t.flag .c = false) [.c] s ∧ SetsOnly .sec (fun t => t.flag .c = true) [.c] s ∧
    SetsOnly .cli (fun t => t.flag .i = false) [.i] s ∧ SetsOnly .sei (fun t => t.flag .i = true) [.i] s ∧
    SetsOnly .clv (fun t => t.flag .v = false) [.v] s ∧
    SetsOnly .cld (fun t => t.flag .d = false) [.d] s ∧ SetsOnly .sed (fun t => t.flag .d = true) [.d] s

/-- R145, R146: NOP and every illegal opcode change nothing but PC, which moves by one byte, U, which the dispatch forces, and
the internal `fetched`, which takes A. They take their base count, which for an illegal opcode is the free value of log 5. -/
def Obligations.NopAndIllegalOpcodesDoNothing : Prop :=
  ∀ (i : Instr) (s : State), (i = .nop ∨ ∃ op ∈ illegalOpcodes, i = .xxx op) →
    SetsOnly i (fun t => t.flag .u = true ∧ t.fetched = s.a ∧ t.addressAbs = s.addressAbs ∧
      t.addressRel = s.addressRel ∧ t.cycles = baseCycles i) [] s

/-! ### Reset (70_reset_and_hazards.md) -/

/-- R160, R161, R162, R35 (the vector's address is the spec's own decision D1; SP, the latency and the latched opcode are
arguments): reset in any state, Idle or Busy. `State.reset` is a reset with the values of logs 2, 3 and 4 on a memory that
lists nothing. -/
def Obligations.ResetLeavesTheStatedState : Prop :=
  (∀ (p : ResetParams) (s : State),
    let t := hostReset p s
    t.pc.toNat = (s.mem.read 0xFFFD).toNat * 256 + (s.mem.read 0xFFFC).toNat ∧
    t.a = 0 ∧ t.x = 0 ∧ t.y = 0 ∧ t.sr = 0 ∧ t.sp = p.sp ∧ t.addressAbs = 0 ∧ t.addressRel = 0 ∧ t.fetched = 0 ∧
    (t.cycles = 7 ∨ t.cycles = 8) ∧ t.mem = s.mem ∧
    resetAccesses s = [.read 0xFFFC (s.read 0xFFFC), .read 0xFFFD (s.read 0xFFFD)]) ∧
  (∀ s : State, s.mem = [] → hostReset .ofConfig s = State.reset)

/-- R165, R160: after a reset the first RESET_LATENCY ticks change `cycles` only, so the first dispatch happens on tick
RESET_LATENCY + 1. -/
def Obligations.FirstDispatchFollowsTheLatency : Prop :=
  ∀ (p : ResetParams) (s : State) (k : Nat), k ≤ p.latency.ticks →
    runTicks k (hostReset p s) = .next { hostReset p s with cycles := p.latency.ticks - k }

/-! ### The debug surface (60_exceptions.md) -/

/-- R158, R6: the register dump shows all of A, X, Y, SP, SR and PC and nothing else: two states have the same dump exactly
when they agree on these six. Its layout is the model's (log 12). -/
def Obligations.DumpShowsExactlyTheRegisters : Prop :=
  ∀ s t : State, registerDump s = registerDump t ↔
    s.a = t.a ∧ s.x = t.x ∧ s.y = t.y ∧ s.sp = t.sp ∧ s.sr = t.sr ∧ s.pc = t.pc
end

