-- ==== Sys2Proof/Laws/State.lean ====
section
/-! SUPPORT. One lemma per field per update: what each named operation leaves alone, and what it writes. Later proofs
cite these and do not unfold a record update. -/

namespace Sys2Proof.Machine

variable (s : State) (m : Operand) (v : Byte) (w : Addr) (f : Flag) (b : Bool) (op : Byte) (n : Nat)
  (cond : State → Bool)

/-! ### state_write -/

@[simp] theorem state_write_a : (s.write w v).a = s.a := rfl
@[simp] theorem state_write_x : (s.write w v).x = s.x := rfl
@[simp] theorem state_write_y : (s.write w v).y = s.y := rfl
@[simp] theorem state_write_sp : (s.write w v).sp = s.sp := rfl
@[simp] theorem state_write_sr : (s.write w v).sr = s.sr := rfl
@[simp] theorem state_write_pc : (s.write w v).pc = s.pc := rfl
@[simp] theorem state_write_addressAbs : (s.write w v).addressAbs = s.addressAbs := rfl
@[simp] theorem state_write_addressRel : (s.write w v).addressRel = s.addressRel := rfl
@[simp] theorem state_write_fetched : (s.write w v).fetched = s.fetched := rfl
@[simp] theorem state_write_opcode : (s.write w v).opcode = s.opcode := rfl
@[simp] theorem state_write_cycles : (s.write w v).cycles = s.cycles := rfl
@[simp] theorem state_write_mem : (s.write w v).mem = s.mem.write w.toNat v := rfl

/-! ### state_setPc -/

@[simp] theorem state_setPc_a : (s.setPc w).a = s.a := rfl
@[simp] theorem state_setPc_x : (s.setPc w).x = s.x := rfl
@[simp] theorem state_setPc_y : (s.setPc w).y = s.y := rfl
@[simp] theorem state_setPc_sp : (s.setPc w).sp = s.sp := rfl
@[simp] theorem state_setPc_sr : (s.setPc w).sr = s.sr := rfl
@[simp] theorem state_setPc_pc : (s.setPc w).pc = w := rfl
@[simp] theorem state_setPc_addressAbs : (s.setPc w).addressAbs = s.addressAbs := rfl
@[simp] theorem state_setPc_addressRel : (s.setPc w).addressRel = s.addressRel := rfl
@[simp] theorem state_setPc_fetched : (s.setPc w).fetched = s.fetched := rfl
@[simp] theorem state_setPc_opcode : (s.setPc w).opcode = s.opcode := rfl
@[simp] theorem state_setPc_cycles : (s.setPc w).cycles = s.cycles := rfl
@[simp] theorem state_setPc_mem : (s.setPc w).mem = s.mem := rfl

/-! ### state_setSp -/

@[simp] theorem state_setSp_a : (s.setSp v).a = s.a := rfl
@[simp] theorem state_setSp_x : (s.setSp v).x = s.x := rfl
@[simp] theorem state_setSp_y : (s.setSp v).y = s.y := rfl
@[simp] theorem state_setSp_sp : (s.setSp v).sp = v := rfl
@[simp] theorem state_setSp_sr : (s.setSp v).sr = s.sr := rfl
@[simp] theorem state_setSp_pc : (s.setSp v).pc = s.pc := rfl
@[simp] theorem state_setSp_addressAbs : (s.setSp v).addressAbs = s.addressAbs := rfl
@[simp] theorem state_setSp_addressRel : (s.setSp v).addressRel = s.addressRel := rfl
@[simp] theorem state_setSp_fetched : (s.setSp v).fetched = s.fetched := rfl
@[simp] theorem state_setSp_opcode : (s.setSp v).opcode = s.opcode := rfl
@[simp] theorem state_setSp_cycles : (s.setSp v).cycles = s.cycles := rfl
@[simp] theorem state_setSp_mem : (s.setSp v).mem = s.mem := rfl

/-! ### state_setSr -/

@[simp] theorem state_setSr_a : (s.setSr v).a = s.a := rfl
@[simp] theorem state_setSr_x : (s.setSr v).x = s.x := rfl
@[simp] theorem state_setSr_y : (s.setSr v).y = s.y := rfl
@[simp] theorem state_setSr_sp : (s.setSr v).sp = s.sp := rfl
@[simp] theorem state_setSr_sr : (s.setSr v).sr = v := rfl
@[simp] theorem state_setSr_pc : (s.setSr v).pc = s.pc := rfl
@[simp] theorem state_setSr_addressAbs : (s.setSr v).addressAbs = s.addressAbs := rfl
@[simp] theorem state_setSr_addressRel : (s.setSr v).addressRel = s.addressRel := rfl
@[simp] theorem state_setSr_fetched : (s.setSr v).fetched = s.fetched := rfl
@[simp] theorem state_setSr_opcode : (s.setSr v).opcode = s.opcode := rfl
@[simp] theorem state_setSr_cycles : (s.setSr v).cycles = s.cycles := rfl
@[simp] theorem state_setSr_mem : (s.setSr v).mem = s.mem := rfl

/-! ### state_setFlag -/

@[simp] theorem state_setFlag_a : (s.setFlag f b).a = s.a := rfl
@[simp] theorem state_setFlag_x : (s.setFlag f b).x = s.x := rfl
@[simp] theorem state_setFlag_y : (s.setFlag f b).y = s.y := rfl
@[simp] theorem state_setFlag_sp : (s.setFlag f b).sp = s.sp := rfl
@[simp] theorem state_setFlag_sr : (s.setFlag f b).sr = setFlag f b s.sr := rfl
@[simp] theorem state_setFlag_pc : (s.setFlag f b).pc = s.pc := rfl
@[simp] theorem state_setFlag_addressAbs : (s.setFlag f b).addressAbs = s.addressAbs := rfl
@[simp] theorem state_setFlag_addressRel : (s.setFlag f b).addressRel = s.addressRel := rfl
@[simp] theorem state_setFlag_fetched : (s.setFlag f b).fetched = s.fetched := rfl
@[simp] theorem state_setFlag_opcode : (s.setFlag f b).opcode = s.opcode := rfl
@[simp] theorem state_setFlag_cycles : (s.setFlag f b).cycles = s.cycles := rfl
@[simp] theorem state_setFlag_mem : (s.setFlag f b).mem = s.mem := rfl

/-! ### state_setZN -/

@[simp] theorem state_setZN_a : (s.setZN v).a = s.a := rfl
@[simp] theorem state_setZN_x : (s.setZN v).x = s.x := rfl
@[simp] theorem state_setZN_y : (s.setZN v).y = s.y := rfl
@[simp] theorem state_setZN_sp : (s.setZN v).sp = s.sp := rfl
@[simp] theorem state_setZN_sr : (s.setZN v).sr = setZN v s.sr := rfl
@[simp] theorem state_setZN_pc : (s.setZN v).pc = s.pc := rfl
@[simp] theorem state_setZN_addressAbs : (s.setZN v).addressAbs = s.addressAbs := rfl
@[simp] theorem state_setZN_addressRel : (s.setZN v).addressRel = s.addressRel := rfl
@[simp] theorem state_setZN_fetched : (s.setZN v).fetched = s.fetched := rfl
@[simp] theorem state_setZN_opcode : (s.setZN v).opcode = s.opcode := rfl
@[simp] theorem state_setZN_cycles : (s.setZN v).cycles = s.cycles := rfl
@[simp] theorem state_setZN_mem : (s.setZN v).mem = s.mem := rfl

/-! ### push -/

@[simp] theorem push_a : (push v s).a = s.a := rfl
@[simp] theorem push_x : (push v s).x = s.x := rfl
@[simp] theorem push_y : (push v s).y = s.y := rfl
@[simp] theorem push_sp : (push v s).sp = s.sp - 1 := rfl
@[simp] theorem push_sr : (push v s).sr = s.sr := rfl
@[simp] theorem push_pc : (push v s).pc = s.pc := rfl
@[simp] theorem push_addressAbs : (push v s).addressAbs = s.addressAbs := rfl
@[simp] theorem push_addressRel : (push v s).addressRel = s.addressRel := rfl
@[simp] theorem push_fetched : (push v s).fetched = s.fetched := rfl
@[simp] theorem push_opcode : (push v s).opcode = s.opcode := rfl
@[simp] theorem push_cycles : (push v s).cycles = s.cycles := rfl
@[simp] theorem push_mem : (push v s).mem = s.mem.write (stackAddr s.sp).toNat v := rfl

/-! ### pull -/

@[simp] theorem pull_a : ((pull s).2).a = s.a := rfl
@[simp] theorem pull_x : ((pull s).2).x = s.x := rfl
@[simp] theorem pull_y : ((pull s).2).y = s.y := rfl
@[simp] theorem pull_sp : ((pull s).2).sp = s.sp + 1 := rfl
@[simp] theorem pull_sr : ((pull s).2).sr = s.sr := rfl
@[simp] theorem pull_pc : ((pull s).2).pc = s.pc := rfl
@[simp] theorem pull_addressAbs : ((pull s).2).addressAbs = s.addressAbs := rfl
@[simp] theorem pull_addressRel : ((pull s).2).addressRel = s.addressRel := rfl
@[simp] theorem pull_fetched : ((pull s).2).fetched = s.fetched := rfl
@[simp] theorem pull_opcode : ((pull s).2).opcode = s.opcode := rfl
@[simp] theorem pull_cycles : ((pull s).2).cycles = s.cycles := rfl
@[simp] theorem pull_mem : ((pull s).2).mem = s.mem := rfl

/-! ### pushWord -/

@[simp] theorem pushWord_a : (pushWord w s).a = s.a := by simp [pushWord]
@[simp] theorem pushWord_x : (pushWord w s).x = s.x := by simp [pushWord]
@[simp] theorem pushWord_y : (pushWord w s).y = s.y := by simp [pushWord]
@[simp] theorem pushWord_sp : (pushWord w s).sp = s.sp - 1 - 1 := by simp [pushWord]
@[simp] theorem pushWord_sr : (pushWord w s).sr = s.sr := by simp [pushWord]
@[simp] theorem pushWord_pc : (pushWord w s).pc = s.pc := by simp [pushWord]
@[simp] theorem pushWord_addressAbs : (pushWord w s).addressAbs = s.addressAbs := by simp [pushWord]
@[simp] theorem pushWord_addressRel : (pushWord w s).addressRel = s.addressRel := by simp [pushWord]
@[simp] theorem pushWord_fetched : (pushWord w s).fetched = s.fetched := by simp [pushWord]
@[simp] theorem pushWord_opcode : (pushWord w s).opcode = s.opcode := by simp [pushWord]
@[simp] theorem pushWord_cycles : (pushWord w s).cycles = s.cycles := by simp [pushWord]
@[simp] theorem pushWord_mem : (pushWord w s).mem = (s.mem.write (stackAddr s.sp).toNat (hiByte w)).write (stackAddr (s.sp - 1)).toNat (loByte w) := by simp [pushWord]

/-! ### pullWord -/

@[simp] theorem pullWord_a : ((pullWord s).2).a = s.a := by simp [pullWord]
@[simp] theorem pullWord_x : ((pullWord s).2).x = s.x := by simp [pullWord]
@[simp] theorem pullWord_y : ((pullWord s).2).y = s.y := by simp [pullWord]
@[simp] theorem pullWord_sp : ((pullWord s).2).sp = s.sp + 1 + 1 := by simp [pullWord]
@[simp] theorem pullWord_sr : ((pullWord s).2).sr = s.sr := by simp [pullWord]
@[simp] theorem pullWord_pc : ((pullWord s).2).pc = s.pc := by simp [pullWord]
@[simp] theorem pullWord_addressAbs : ((pullWord s).2).addressAbs = s.addressAbs := by simp [pullWord]
@[simp] theorem pullWord_addressRel : ((pullWord s).2).addressRel = s.addressRel := by simp [pullWord]
@[simp] theorem pullWord_fetched : ((pullWord s).2).fetched = s.fetched := by simp [pullWord]
@[simp] theorem pullWord_opcode : ((pullWord s).2).opcode = s.opcode := by simp [pullWord]
@[simp] theorem pullWord_cycles : ((pullWord s).2).cycles = s.cycles := by simp [pullWord]
@[simp] theorem pullWord_mem : ((pullWord s).2).mem = s.mem := by simp [pullWord]

/-! ### enterTrap -/

@[simp] theorem enterTrap_a : (enterTrap s).a = s.a := by simp [enterTrap]
@[simp] theorem enterTrap_x : (enterTrap s).x = s.x := by simp [enterTrap]
@[simp] theorem enterTrap_y : (enterTrap s).y = s.y := by simp [enterTrap]
@[simp] theorem enterTrap_sp : (enterTrap s).sp = s.sp - 1 - 1 - 1 := by simp [enterTrap]
@[simp] theorem enterTrap_sr : (enterTrap s).sr = setFlag .i true s.sr := by simp [enterTrap]
@[simp] theorem enterTrap_addressAbs : (enterTrap s).addressAbs = s.addressAbs := by simp [enterTrap]
@[simp] theorem enterTrap_addressRel : (enterTrap s).addressRel = s.addressRel := by simp [enterTrap]
@[simp] theorem enterTrap_fetched : (enterTrap s).fetched = s.fetched := by simp [enterTrap]
@[simp] theorem enterTrap_opcode : (enterTrap s).opcode = s.opcode := by simp [enterTrap]
@[simp] theorem enterTrap_cycles : (enterTrap s).cycles = s.cycles := by simp [enterTrap]

/-! ### returnFromTrap -/

@[simp] theorem returnFromTrap_a : (returnFromTrap s).a = s.a := by simp [returnFromTrap]
@[simp] theorem returnFromTrap_x : (returnFromTrap s).x = s.x := by simp [returnFromTrap]
@[simp] theorem returnFromTrap_y : (returnFromTrap s).y = s.y := by simp [returnFromTrap]
@[simp] theorem returnFromTrap_sp : (returnFromTrap s).sp = s.sp + 1 + 1 + 1 := by simp [returnFromTrap]
@[simp] theorem returnFromTrap_sr : (returnFromTrap s).sr = pulledStatus (pull s).1 := by simp [returnFromTrap]
@[simp] theorem returnFromTrap_addressAbs : (returnFromTrap s).addressAbs = s.addressAbs := by simp [returnFromTrap]
@[simp] theorem returnFromTrap_addressRel : (returnFromTrap s).addressRel = s.addressRel := by simp [returnFromTrap]
@[simp] theorem returnFromTrap_fetched : (returnFromTrap s).fetched = s.fetched := by simp [returnFromTrap]
@[simp] theorem returnFromTrap_opcode : (returnFromTrap s).opcode = s.opcode := by simp [returnFromTrap]
@[simp] theorem returnFromTrap_cycles : (returnFromTrap s).cycles = s.cycles := by simp [returnFromTrap]
@[simp] theorem returnFromTrap_mem : (returnFromTrap s).mem = s.mem := by simp [returnFromTrap]

/-! ### branchIf -/

@[simp] theorem branchIf_a : (branchIf cond s).a = s.a := by unfold branchIf; split <;> rfl
@[simp] theorem branchIf_x : (branchIf cond s).x = s.x := by unfold branchIf; split <;> rfl
@[simp] theorem branchIf_y : (branchIf cond s).y = s.y := by unfold branchIf; split <;> rfl
@[simp] theorem branchIf_sp : (branchIf cond s).sp = s.sp := by unfold branchIf; split <;> rfl
@[simp] theorem branchIf_sr : (branchIf cond s).sr = s.sr := by unfold branchIf; split <;> rfl
@[simp] theorem branchIf_pc : (branchIf cond s).pc = if cond s then branchTarget s else s.pc := by unfold branchIf; split <;> rfl
@[simp] theorem branchIf_addressAbs : (branchIf cond s).addressAbs = s.addressAbs := by unfold branchIf; split <;> rfl
@[simp] theorem branchIf_addressRel : (branchIf cond s).addressRel = s.addressRel := by unfold branchIf; split <;> rfl
@[simp] theorem branchIf_fetched : (branchIf cond s).fetched = s.fetched := by unfold branchIf; split <;> rfl
@[simp] theorem branchIf_opcode : (branchIf cond s).opcode = s.opcode := by unfold branchIf; split <;> rfl
@[simp] theorem branchIf_cycles : (branchIf cond s).cycles = s.cycles := by unfold branchIf; split <;> rfl
@[simp] theorem branchIf_mem : (branchIf cond s).mem = s.mem := by unfold branchIf; split <;> rfl

/-! ### resolve -/

@[simp] theorem resolve_a : (resolve m s).a = s.a := by cases m <;> rfl
@[simp] theorem resolve_x : (resolve m s).x = s.x := by cases m <;> rfl
@[simp] theorem resolve_y : (resolve m s).y = s.y := by cases m <;> rfl
@[simp] theorem resolve_sp : (resolve m s).sp = s.sp := by cases m <;> rfl
@[simp] theorem resolve_sr : (resolve m s).sr = s.sr := by cases m <;> rfl
@[simp] theorem resolve_pc : (resolve m s).pc = s.pc + BitVec.ofNat 16 m.mode.operandBytes := by cases m <;> rfl
@[simp] theorem resolve_opcode : (resolve m s).opcode = s.opcode := by cases m <;> rfl
@[simp] theorem resolve_cycles : (resolve m s).cycles = s.cycles := by cases m <;> rfl
@[simp] theorem resolve_mem : (resolve m s).mem = s.mem := by cases m <;> rfl

/-! ### fetch -/

@[simp] theorem fetch_a : (fetch m s).a = s.a := by cases m <;> rfl
@[simp] theorem fetch_x : (fetch m s).x = s.x := by cases m <;> rfl
@[simp] theorem fetch_y : (fetch m s).y = s.y := by cases m <;> rfl
@[simp] theorem fetch_sp : (fetch m s).sp = s.sp := by cases m <;> rfl
@[simp] theorem fetch_sr : (fetch m s).sr = s.sr := by cases m <;> rfl
@[simp] theorem fetch_pc : (fetch m s).pc = s.pc := by cases m <;> rfl
@[simp] theorem fetch_addressAbs : (fetch m s).addressAbs = s.addressAbs := by cases m <;> rfl
@[simp] theorem fetch_addressRel : (fetch m s).addressRel = s.addressRel := by cases m <;> rfl
@[simp] theorem fetch_opcode : (fetch m s).opcode = s.opcode := by cases m <;> rfl
@[simp] theorem fetch_cycles : (fetch m s).cycles = s.cycles := by cases m <;> rfl
@[simp] theorem fetch_mem : (fetch m s).mem = s.mem := by cases m <;> rfl

/-! ### writeBack -/

@[simp] theorem writeBack_x : (writeBack m v s).x = s.x := by cases m <;> rfl
@[simp] theorem writeBack_y : (writeBack m v s).y = s.y := by cases m <;> rfl
@[simp] theorem writeBack_sp : (writeBack m v s).sp = s.sp := by cases m <;> rfl
@[simp] theorem writeBack_sr : (writeBack m v s).sr = s.sr := by cases m <;> rfl
@[simp] theorem writeBack_pc : (writeBack m v s).pc = s.pc := by cases m <;> rfl
@[simp] theorem writeBack_addressAbs : (writeBack m v s).addressAbs = s.addressAbs := by cases m <;> rfl
@[simp] theorem writeBack_addressRel : (writeBack m v s).addressRel = s.addressRel := by cases m <;> rfl
@[simp] theorem writeBack_fetched : (writeBack m v s).fetched = s.fetched := by cases m <;> rfl
@[simp] theorem writeBack_opcode : (writeBack m v s).opcode = s.opcode := by cases m <;> rfl
@[simp] theorem writeBack_cycles : (writeBack m v s).cycles = s.cycles := by cases m <;> rfl

/-! ### prologue -/

@[simp] theorem prologue_a : (prologue op s).a = s.a := rfl
@[simp] theorem prologue_x : (prologue op s).x = s.x := rfl
@[simp] theorem prologue_y : (prologue op s).y = s.y := rfl
@[simp] theorem prologue_sp : (prologue op s).sp = s.sp := rfl
@[simp] theorem prologue_sr : (prologue op s).sr = setFlag .u true s.sr := rfl
@[simp] theorem prologue_pc : (prologue op s).pc = s.pc + 1 := rfl
@[simp] theorem prologue_addressAbs : (prologue op s).addressAbs = s.addressAbs := rfl
@[simp] theorem prologue_addressRel : (prologue op s).addressRel = s.addressRel := rfl
@[simp] theorem prologue_fetched : (prologue op s).fetched = s.fetched := rfl
@[simp] theorem prologue_opcode : (prologue op s).opcode = op := rfl
@[simp] theorem prologue_cycles : (prologue op s).cycles = s.cycles := rfl
@[simp] theorem prologue_mem : (prologue op s).mem = s.mem := rfl

/-! ### epilogue -/

@[simp] theorem epilogue_a : (epilogue n s).a = s.a := rfl
@[simp] theorem epilogue_x : (epilogue n s).x = s.x := rfl
@[simp] theorem epilogue_y : (epilogue n s).y = s.y := rfl
@[simp] theorem epilogue_sp : (epilogue n s).sp = s.sp := rfl
@[simp] theorem epilogue_sr : (epilogue n s).sr = setFlag .u true s.sr := rfl
@[simp] theorem epilogue_pc : (epilogue n s).pc = s.pc := rfl
@[simp] theorem epilogue_addressAbs : (epilogue n s).addressAbs = s.addressAbs := rfl
@[simp] theorem epilogue_addressRel : (epilogue n s).addressRel = s.addressRel := rfl
@[simp] theorem epilogue_fetched : (epilogue n s).fetched = s.fetched := rfl
@[simp] theorem epilogue_opcode : (epilogue n s).opcode = s.opcode := rfl
@[simp] theorem epilogue_cycles : (epilogue n s).cycles = n := rfl
@[simp] theorem epilogue_mem : (epilogue n s).mem = s.mem := rfl

/-! ### countDown -/

@[simp] theorem countDown_a : (countDown s).a = s.a := rfl
@[simp] theorem countDown_x : (countDown s).x = s.x := rfl
@[simp] theorem countDown_y : (countDown s).y = s.y := rfl
@[simp] theorem countDown_sp : (countDown s).sp = s.sp := rfl
@[simp] theorem countDown_sr : (countDown s).sr = s.sr := rfl
@[simp] theorem countDown_pc : (countDown s).pc = s.pc := rfl
@[simp] theorem countDown_addressAbs : (countDown s).addressAbs = s.addressAbs := rfl
@[simp] theorem countDown_addressRel : (countDown s).addressRel = s.addressRel := rfl
@[simp] theorem countDown_fetched : (countDown s).fetched = s.fetched := rfl
@[simp] theorem countDown_opcode : (countDown s).opcode = s.opcode := rfl
@[simp] theorem countDown_cycles : (countDown s).cycles = s.cycles - 1 := rfl
@[simp] theorem countDown_mem : (countDown s).mem = s.mem := rfl

/-! ### setA -/

@[simp] theorem setA_a : (setA v s).a = v := rfl
@[simp] theorem setA_x : (setA v s).x = s.x := rfl
@[simp] theorem setA_y : (setA v s).y = s.y := rfl
@[simp] theorem setA_sp : (setA v s).sp = s.sp := rfl
@[simp] theorem setA_sr : (setA v s).sr = setZN v s.sr := rfl
@[simp] theorem setA_pc : (setA v s).pc = s.pc := rfl
@[simp] theorem setA_addressAbs : (setA v s).addressAbs = s.addressAbs := rfl
@[simp] theorem setA_addressRel : (setA v s).addressRel = s.addressRel := rfl
@[simp] theorem setA_fetched : (setA v s).fetched = s.fetched := rfl
@[simp] theorem setA_opcode : (setA v s).opcode = s.opcode := rfl
@[simp] theorem setA_cycles : (setA v s).cycles = s.cycles := rfl
@[simp] theorem setA_mem : (setA v s).mem = s.mem := rfl

/-! ### setX -/

@[simp] theorem setX_a : (setX v s).a = s.a := rfl
@[simp] theorem setX_x : (setX v s).x = v := rfl
@[simp] theorem setX_y : (setX v s).y = s.y := rfl
@[simp] theorem setX_sp : (setX v s).sp = s.sp := rfl
@[simp] theorem setX_sr : (setX v s).sr = setZN v s.sr := rfl
@[simp] theorem setX_pc : (setX v s).pc = s.pc := rfl
@[simp] theorem setX_addressAbs : (setX v s).addressAbs = s.addressAbs := rfl
@[simp] theorem setX_addressRel : (setX v s).addressRel = s.addressRel := rfl
@[simp] theorem setX_fetched : (setX v s).fetched = s.fetched := rfl
@[simp] theorem setX_opcode : (setX v s).opcode = s.opcode := rfl
@[simp] theorem setX_cycles : (setX v s).cycles = s.cycles := rfl
@[simp] theorem setX_mem : (setX v s).mem = s.mem := rfl

/-! ### setY -/

@[simp] theorem setY_a : (setY v s).a = s.a := rfl
@[simp] theorem setY_x : (setY v s).x = s.x := rfl
@[simp] theorem setY_y : (setY v s).y = v := rfl
@[simp] theorem setY_sp : (setY v s).sp = s.sp := rfl
@[simp] theorem setY_sr : (setY v s).sr = setZN v s.sr := rfl
@[simp] theorem setY_pc : (setY v s).pc = s.pc := rfl
@[simp] theorem setY_addressAbs : (setY v s).addressAbs = s.addressAbs := rfl
@[simp] theorem setY_addressRel : (setY v s).addressRel = s.addressRel := rfl
@[simp] theorem setY_fetched : (setY v s).fetched = s.fetched := rfl
@[simp] theorem setY_opcode : (setY v s).opcode = s.opcode := rfl
@[simp] theorem setY_cycles : (setY v s).cycles = s.cycles := rfl
@[simp] theorem setY_mem : (setY v s).mem = s.mem := rfl

/-! ### addToA -/

@[simp] theorem addToA_a : (addToA v s).a = adcResult s.a v s.sr := rfl
@[simp] theorem addToA_x : (addToA v s).x = s.x := rfl
@[simp] theorem addToA_y : (addToA v s).y = s.y := rfl
@[simp] theorem addToA_sp : (addToA v s).sp = s.sp := rfl
@[simp] theorem addToA_sr : (addToA v s).sr = adcFlags s.a v s.sr := rfl
@[simp] theorem addToA_pc : (addToA v s).pc = s.pc := rfl
@[simp] theorem addToA_addressAbs : (addToA v s).addressAbs = s.addressAbs := rfl
@[simp] theorem addToA_addressRel : (addToA v s).addressRel = s.addressRel := rfl
@[simp] theorem addToA_fetched : (addToA v s).fetched = s.fetched := rfl
@[simp] theorem addToA_opcode : (addToA v s).opcode = s.opcode := rfl
@[simp] theorem addToA_cycles : (addToA v s).cycles = s.cycles := rfl
@[simp] theorem addToA_mem : (addToA v s).mem = s.mem := rfl

/-! ### compareWith -/

@[simp] theorem compareWith_a : (compareWith v s).a = s.a := rfl
@[simp] theorem compareWith_x : (compareWith v s).x = s.x := rfl
@[simp] theorem compareWith_y : (compareWith v s).y = s.y := rfl
@[simp] theorem compareWith_sp : (compareWith v s).sp = s.sp := rfl
@[simp] theorem compareWith_sr : (compareWith v s).sr = compareFlags v s.fetched s.sr := rfl
@[simp] theorem compareWith_pc : (compareWith v s).pc = s.pc := rfl
@[simp] theorem compareWith_addressAbs : (compareWith v s).addressAbs = s.addressAbs := rfl
@[simp] theorem compareWith_addressRel : (compareWith v s).addressRel = s.addressRel := rfl
@[simp] theorem compareWith_fetched : (compareWith v s).fetched = s.fetched := rfl
@[simp] theorem compareWith_opcode : (compareWith v s).opcode = s.opcode := rfl
@[simp] theorem compareWith_cycles : (compareWith v s).cycles = s.cycles := rfl
@[simp] theorem compareWith_mem : (compareWith v s).mem = s.mem := rfl

/-! ### ruleBit -/

@[simp] theorem ruleBit_a : (ruleBit s).a = s.a := rfl
@[simp] theorem ruleBit_x : (ruleBit s).x = s.x := rfl
@[simp] theorem ruleBit_y : (ruleBit s).y = s.y := rfl
@[simp] theorem ruleBit_sp : (ruleBit s).sp = s.sp := rfl
@[simp] theorem ruleBit_sr : (ruleBit s).sr = bitFlags s.a s.fetched s.sr := rfl
@[simp] theorem ruleBit_pc : (ruleBit s).pc = s.pc := rfl
@[simp] theorem ruleBit_addressAbs : (ruleBit s).addressAbs = s.addressAbs := rfl
@[simp] theorem ruleBit_addressRel : (ruleBit s).addressRel = s.addressRel := rfl
@[simp] theorem ruleBit_fetched : (ruleBit s).fetched = s.fetched := rfl
@[simp] theorem ruleBit_opcode : (ruleBit s).opcode = s.opcode := rfl
@[simp] theorem ruleBit_cycles : (ruleBit s).cycles = s.cycles := rfl
@[simp] theorem ruleBit_mem : (ruleBit s).mem = s.mem := rfl

/-! ### storeCount -/

@[simp] theorem storeCount_a : (storeCount v s).a = s.a := rfl
@[simp] theorem storeCount_x : (storeCount v s).x = s.x := rfl
@[simp] theorem storeCount_y : (storeCount v s).y = s.y := rfl
@[simp] theorem storeCount_sp : (storeCount v s).sp = s.sp := rfl
@[simp] theorem storeCount_sr : (storeCount v s).sr = setZN v s.sr := rfl
@[simp] theorem storeCount_pc : (storeCount v s).pc = s.pc := rfl
@[simp] theorem storeCount_addressAbs : (storeCount v s).addressAbs = s.addressAbs := rfl
@[simp] theorem storeCount_addressRel : (storeCount v s).addressRel = s.addressRel := rfl
@[simp] theorem storeCount_fetched : (storeCount v s).fetched = s.fetched := rfl
@[simp] theorem storeCount_opcode : (storeCount v s).opcode = s.opcode := rfl
@[simp] theorem storeCount_cycles : (storeCount v s).cycles = s.cycles := rfl
@[simp] theorem storeCount_mem : (storeCount v s).mem = s.mem.write s.addressAbs.toNat v := rfl

/-! ### shiftEnd -/

@[simp] theorem shiftEnd_x : (shiftEnd m b v s).x = s.x := by cases m <;> rfl
@[simp] theorem shiftEnd_y : (shiftEnd m b v s).y = s.y := by cases m <;> rfl
@[simp] theorem shiftEnd_sp : (shiftEnd m b v s).sp = s.sp := by cases m <;> rfl
@[simp] theorem shiftEnd_sr : (shiftEnd m b v s).sr = shiftFlags b v s.sr := by cases m <;> rfl
@[simp] theorem shiftEnd_pc : (shiftEnd m b v s).pc = s.pc := by cases m <;> rfl
@[simp] theorem shiftEnd_addressAbs : (shiftEnd m b v s).addressAbs = s.addressAbs := by cases m <;> rfl
@[simp] theorem shiftEnd_addressRel : (shiftEnd m b v s).addressRel = s.addressRel := by cases m <;> rfl
@[simp] theorem shiftEnd_fetched : (shiftEnd m b v s).fetched = s.fetched := by cases m <;> rfl
@[simp] theorem shiftEnd_opcode : (shiftEnd m b v s).opcode = s.opcode := by cases m <;> rfl
@[simp] theorem shiftEnd_cycles : (shiftEnd m b v s).cycles = s.cycles := by cases m <;> rfl

/-! ### What the scratch fields and the destination hold -/

/-- IMP takes A into `fetched` and leaves the address fields (R71). -/
theorem resolve_imp : resolve .imp s = { s with fetched := s.a } := by
  simp [resolve, Operand.mode, Mode.operandBytes]

/-- REL writes `addressRel` only (R73). -/
theorem resolve_rel (r : Byte) : resolve (.rel r) s = { s with addressRel := sext16 r, pc := s.pc + 1 } := rfl

/-- Every mode but IMP and REL writes `addressAbs` (R72, R74 to R82). -/
theorem resolve_addressAbs : (resolve m s).addressAbs = effectiveAddress m s := by cases m <;> rfl

/-- What `Fetch` leaves in `fetched` (R84). -/
theorem fetch_fetched : (fetch m s).fetched =
    match m with
    | .imp => s.fetched
    | .imm i => i
    | _ => s.read s.addressAbs := by cases m <;> rfl

/-- The form-independent reading of a flag of a state. -/
theorem state_flag_eq : s.flag f = getFlag f s.sr := rfl

/-- A read looks at memory only. -/
theorem read_of_mem_eq {s t : State} (h : s.mem = t.mem) (w : Addr) : s.read w = t.read w := by
  simp [State.read, h]

end Sys2Proof.Machine
end

