-- ==== Sys2Proof/Laws/Flags.lean ====
section
/-! SUPPORT. Laws of the status flags: reading one flag after writing another, and what each flag computation leaves in
each flag. -/

namespace Sys2Proof.Machine

/-- Reading a flag of a status byte whose flag `f` was written (R9, R29). -/
theorem getFlag_setFlag (f g : Flag) (v : Bool) (sr : Byte) :
    getFlag g (setFlag f v sr) = if f = g then v else getFlag g sr := by
  cases f <;> cases g <;> cases v <;> simp [getFlag, setFlag, Flag.mask, Flag.bit]

@[simp] theorem getFlag_setFlag_same (f : Flag) (v : Bool) (sr : Byte) : getFlag f (setFlag f v sr) = v := by
  simp [getFlag_setFlag]

@[simp] theorem getFlag_setFlag_ne {f g : Flag} (h : f ≠ g) (v : Bool) (sr : Byte) :
    getFlag g (setFlag f v sr) = getFlag g sr := by simp [getFlag_setFlag, h]

/-- A status byte is its eight flags. -/
theorem sr_ext {p q : Byte} (h : ∀ f, getFlag f p = getFlag f q) : p = q := by
  apply BitVec.eq_of_getLsbD_eq
  intro k hk
  have : k = 0 ∨ k = 1 ∨ k = 2 ∨ k = 3 ∨ k = 4 ∨ k = 5 ∨ k = 6 ∨ k = 7 := by omega
  rcases this with rfl | rfl | rfl | rfl | rfl | rfl | rfl | rfl
  · exact h .c
  · exact h .z
  · exact h .i
  · exact h .d
  · exact h .b
  · exact h .u
  · exact h .v
  · exact h .n

/-- Z and N from the value, every other flag unchanged (R27). -/
theorem getFlag_setZN (g : Flag) (v sr : Byte) : getFlag g (setZN v sr) =
    match g with
    | .z => v == 0
    | .n => v.getLsbD 7
    | g => getFlag g sr := by
  cases g <;> simp [setZN]

/-- C, Z, V, N from the sum, every other flag unchanged (R89). -/
theorem getFlag_adcFlags (g : Flag) (a m sr : Byte) : getFlag g (adcFlags a m sr) =
    match g with
    | .c => decide (adcSum a m sr > 255)
    | .z => adcResult a m sr == 0
    | .v => (~~~(a ^^^ m) &&& (a ^^^ adcResult a m sr)).getLsbD 7
    | .n => (adcResult a m sr).getLsbD 7
    | g => getFlag g sr := by
  cases g <;> simp only [adcFlags, getFlag_setFlag] <;> simp

/-- C, Z, N from the comparison, every other flag unchanged (R94). -/
theorem getFlag_compareFlags (g : Flag) (r m sr : Byte) : getFlag g (compareFlags r m sr) =
    match g with
    | .c => decide (m.toNat ≤ r.toNat)
    | .z => r == m
    | .n => (r - m).getLsbD 7
    | g => getFlag g sr := by
  cases g <;> simp only [compareFlags, getFlag_setFlag] <;> simp

/-- Z, N, V from BIT, every other flag unchanged (R97). -/
theorem getFlag_bitFlags (g : Flag) (a m sr : Byte) : getFlag g (bitFlags a m sr) =
    match g with
    | .z => (a &&& m) == 0
    | .n => m.getLsbD 7
    | .v => m.getLsbD 6
    | g => getFlag g sr := by
  cases g <;> simp only [bitFlags, getFlag_setFlag] <;> simp

/-- C from the bit shifted out, Z and N from the result, every other flag unchanged (R98 to R101). -/
theorem getFlag_shiftFlags (g : Flag) (out : Bool) (r sr : Byte) : getFlag g (shiftFlags out r sr) =
    match g with
    | .c => out
    | .z => r == 0
    | .n => r.getLsbD 7
    | g => getFlag g sr := by
  cases g <;> simp [shiftFlags, getFlag_setZN]

/-- The pushed copy has B and U set (R121, R136). -/
theorem getFlag_pushedStatus (g : Flag) (sr : Byte) : getFlag g (pushedStatus sr) =
    match g with
    | .b | .u => true
    | g => getFlag g sr := by
  cases g <;> simp [getFlag, pushedStatus, Flag.bit]

/-- A pulled status has B clear (R123, R137). -/
theorem getFlag_pulledStatus (g : Flag) (v : Byte) : getFlag g (pulledStatus v) =
    match g with
    | .b => false
    | g => getFlag g v := by
  cases g <;> simp [getFlag, pulledStatus, Flag.bit]

end Sys2Proof.Machine
end

