-- ==== Sys2Proof/Laws/Words.lean ====
section
/-! SUPPORT. Laws of the word helpers: halves, extensions, stack addresses, hexadecimal digits. -/

namespace Sys2Proof

theorem word_toNat (hi lo : Byte) : (word hi lo).toNat = hi.toNat * 256 + lo.toNat := by
  have hl := lo.isLt
  have hh := hi.isLt
  have e : (hi.setWidth 16 <<< 8 : Addr).toNat = hi.toNat <<< 8 := by
    simp only [BitVec.toNat_shiftLeft, BitVec.toNat_setWidth, Nat.shiftLeft_eq]
    omega
  have e' : (lo.setWidth 16 : Addr).toNat = lo.toNat := by
    simp only [BitVec.toNat_setWidth]
    omega
  rw [word, BitVec.toNat_or, e, e', ← Nat.shiftLeft_add_eq_or_of_lt hl, Nat.shiftLeft_eq]

theorem loByte_toNat (w : Addr) : (loByte w).toNat = w.toNat % 256 := by
  simp [loByte, BitVec.extractLsb'_toNat]

theorem hiByte_toNat (w : Addr) : (hiByte w).toNat = w.toNat / 256 := by
  have h := w.isLt
  simp only [hiByte, BitVec.extractLsb'_toNat, Nat.shiftRight_eq_div_pow]
  omega

@[simp] theorem hiByte_word (hi lo : Byte) : hiByte (word hi lo) = hi := by
  apply BitVec.eq_of_toNat_eq
  have := lo.isLt
  rw [hiByte_toNat, word_toNat]
  omega

@[simp] theorem loByte_word (hi lo : Byte) : loByte (word hi lo) = lo := by
  apply BitVec.eq_of_toNat_eq
  have := lo.isLt
  rw [loByte_toNat, word_toNat]
  omega

@[simp] theorem word_halves (w : Addr) : word (hiByte w) (loByte w) = w := by
  apply BitVec.eq_of_toNat_eq
  rw [word_toNat, hiByte_toNat, loByte_toNat]
  omega

namespace Machine

theorem zext16_toNat (v : Byte) : (zext16 v).toNat = v.toNat := by
  have h := v.isLt
  simp only [zext16, BitVec.toNat_setWidth]
  omega

theorem stackAddr_toNat (sp : Byte) : (stackAddr sp).toNat = 256 + sp.toNat := by
  have h := sp.isLt
  simp only [stackAddr, BitVec.toNat_add, BitVec.toNat_setWidth, BitVec.toNat_ofNat]
  omega

/-- Distinct SP values address distinct stack bytes (R20). -/
@[simp] theorem stackAddr_inj (p q : Byte) : stackAddr p = stackAddr q ↔ p = q := by
  constructor
  · intro h
    have h' := congrArg BitVec.toNat h
    rw [stackAddr_toNat, stackAddr_toNat] at h'
    exact BitVec.eq_of_toNat_eq (by omega)
  · rintro rfl; rfl

/-- Distinct values below 16 have distinct digits. -/
theorem hexDigit_inj : ∀ m n : Fin 16, hexDigit m = hexDigit n → m = n := by decide

/-- A byte's two digits determine it. -/
theorem hexByte_inj {v w : Byte} (h : hexByte v = hexByte w) : v = w := by
  have hv := v.isLt
  have hw := w.isLt
  simp only [hexByte, List.cons.injEq, and_true] at h
  have high := hexDigit_inj ⟨v.toNat / 16, by omega⟩ ⟨w.toNat / 16, by omega⟩ h.1
  have low := hexDigit_inj ⟨v.toNat % 16, by omega⟩ ⟨w.toNat % 16, by omega⟩ h.2
  simp only [Fin.mk.injEq] at high low
  exact BitVec.eq_of_toNat_eq (by omega)

end Machine
end Sys2Proof
end

