-- ==== Sys2Proof/Laws/Memory.lean ====
section
/-! SUPPORT. Laws of the bus contents: read after write, and the canonical form. -/

namespace Sys2Proof.Machine

/-! ### Read after write -/

theorem lookup_insert (m : Memory) (a b : Nat) (v : Byte) :
    (Memory.insert a v m).lookup b = if a = b then v else m.lookup b := by
  induction m with
  | nil => rfl
  | cons cell rest ih =>
    obtain ⟨k, w⟩ := cell
    simp only [Memory.insert]
    split
    · simp [Memory.lookup]
    · split
      · next h => subst h; simp only [Memory.lookup]; split <;> rfl
      · next h =>
          simp only [Memory.lookup, ih]
          split <;> split <;> simp_all

theorem lookup_filter (m : Memory) (a b : Nat) :
    Memory.lookup (m.filter (fun cell => cell.1 != a)) b = if a = b then Config.initByte else m.lookup b := by
  induction m with
  | nil => simp [Memory.lookup]
  | cons cell rest ih =>
    obtain ⟨k, w⟩ := cell
    by_cases hk : k = a
    · subst hk
      simp only [List.filter, bne_self_eq_false, ih, Memory.lookup]
      split <;> simp_all
    · have hk' : (k != a) = true := by simp [hk]
      simp only [List.filter, hk', Memory.lookup, ih]
      split <;> split <;> simp_all

/-- A read after a write gives the byte written at that address and leaves every other address alone (R36). Inside the
space it needs no canonical form; outside it a write does nothing (R37). -/
theorem read_write (m : Memory) (a b : Nat) (v : Byte) (ha : a < Config.memorySize) :
    (m.write a v).read b = if a = b then v else m.read b := by
  simp only [Memory.read, Memory.write, ha, if_true]
  by_cases hv : v = Config.initByte
  · subst hv
    simp only [if_true, lookup_filter]
    split <;> split <;> simp_all
  · simp only [hv, if_false, lookup_insert]
    split <;> split <;> simp_all

theorem addr_lt (w : Addr) : w.toNat < Config.memorySize := w.isLt

/-- The core's own reads and writes: `MemRead` after `MemWrite` (R36). -/
@[simp] theorem state_read_write (s : State) (w u : Addr) (v : Byte) :
    (s.write w v).read u = if w = u then v else s.read u := by
  simp only [State.read, State.write, read_write _ _ _ _ (addr_lt w), BitVec.toNat_inj]

/-- A push seen through a read of one byte (R46). -/
@[simp] theorem push_read (s : State) (v : Byte) (u : Addr) :
    (push v s).read u = if stackAddr s.sp = u then v else s.read u :=
  state_read_write s (stackAddr s.sp) u v

/-- A pull changes no byte (R45, R47). -/
@[simp] theorem pull_read (s : State) (u : Addr) : (pull s).2.read u = s.read u := rfl

/-- The byte that a pull gives (R47). -/
theorem pull_fst (s : State) : (pull s).1 = s.read (stackAddr (s.sp + 1)) := rfl

/-- A pushed word seen through a read of one byte (R49). -/
@[simp] theorem pushWord_read (s : State) (w u : Addr) : (pushWord w s).read u =
    if stackAddr (s.sp - 1) = u then loByte w else if stackAddr s.sp = u then hiByte w else s.read u := by
  simp [pushWord]

/-- The word that a double pull gives: low byte first (R49). -/
theorem pullWord_fst (s : State) : (pullWord s).1 =
    word (s.read (stackAddr (s.sp + 1 + 1))) (s.read (stackAddr (s.sp + 1))) := rfl

/-- Trap entry seen through a read of one byte (R136, R150). -/
@[simp] theorem enterTrap_read (s : State) (u : Addr) : (enterTrap s).read u =
    if stackAddr (s.sp - 1 - 1) = u then pushedStatus s.sr
    else if stackAddr (s.sp - 1) = u then loByte (s.pc + 1)
    else if stackAddr s.sp = u then hiByte (s.pc + 1) else s.read u := by
  change (push (pushedStatus s.sr) (pushWord (s.pc + 1) s)).read u = _
  simp

/-- No stack byte is a vector byte (R20, R36). -/
theorem stackAddr_ne_of_le (p : Byte) {u : Addr} (h : 0x0200 ≤ u.toNat) : stackAddr p ≠ u := by
  intro e
  have := stackAddr_toNat p
  have := p.isLt
  rw [e] at *
  omega

/-- Where trap entry goes: the vector is read after the pushes, which do not reach it (R136, R150). -/
theorem enterTrap_pc (s : State) :
    (enterTrap s).pc = s.readWord Config.brkVectorLo Config.brkVectorHi := by
  have lo := fun p => stackAddr_ne_of_le p (u := Config.brkVectorLo) (by decide)
  have hi := fun p => stackAddr_ne_of_le p (u := Config.brkVectorHi) (by decide)
  change (push (pushedStatus s.sr) (pushWord (s.pc + 1) s)).readWord _ _ = _
  simp [State.readWord, lo, hi]

/-- Where trap return goes: the two bytes above the status, low byte first (R137, R151). -/
theorem returnFromTrap_pc (s : State) : (returnFromTrap s).pc =
    word (s.read (stackAddr (s.sp + 1 + 1 + 1))) (s.read (stackAddr (s.sp + 1 + 1))) := rfl

/-! ### Updates that a read of a byte does not see -/

variable (s : State) (m : Operand) (v : Byte) (u : Addr) (f : Flag) (b : Bool) (op : Byte) (n : Nat)

@[simp] theorem setPc_read (w : Addr) : (s.setPc w).read u = s.read u := rfl
@[simp] theorem setSp_read : (s.setSp v).read u = s.read u := rfl
@[simp] theorem setSr_read : (s.setSr v).read u = s.read u := rfl
@[simp] theorem setFlag_read : (s.setFlag f b).read u = s.read u := rfl
@[simp] theorem setZN_read : (s.setZN v).read u = s.read u := rfl
@[simp] theorem setA_read : (setA v s).read u = s.read u := rfl
@[simp] theorem setX_read : (setX v s).read u = s.read u := rfl
@[simp] theorem setY_read : (setY v s).read u = s.read u := rfl
@[simp] theorem addToA_read : (addToA v s).read u = s.read u := rfl
@[simp] theorem compareWith_read : (compareWith v s).read u = s.read u := rfl
@[simp] theorem ruleBit_read : (ruleBit s).read u = s.read u := rfl
@[simp] theorem fetch_read : (fetch m s).read u = s.read u := by cases m <;> rfl
@[simp] theorem resolve_read : (resolve m s).read u = s.read u := by cases m <;> rfl
@[simp] theorem prologue_read : (prologue op s).read u = s.read u := rfl
@[simp] theorem epilogue_read : (epilogue n s).read u = s.read u := rfl
@[simp] theorem countDown_read : (countDown s).read u = s.read u := rfl

/-! ### The canonical form -/

theorem wfFrom_mono {low low' : Nat} (h : low' ≤ low) {m : Memory} (hm : m.wfFrom low = true) :
    m.wfFrom low' = true := by
  cases m with
  | nil => rfl
  | cons cell rest =>
    obtain ⟨k, v⟩ := cell
    simp only [Memory.wfFrom, Bool.and_eq_true, decide_eq_true_eq] at *
    exact ⟨⟨⟨h.trans hm.1.1.1, hm.1.1.2⟩, hm.1.2⟩, hm.2⟩

theorem wfFrom_filter (a : Nat) {m : Memory} : ∀ {low : Nat}, m.wfFrom low = true →
    Memory.wfFrom low (m.filter (fun cell => cell.1 != a)) = true := by
  induction m with
  | nil => intros; rfl
  | cons cell rest ih =>
    obtain ⟨k, v⟩ := cell
    intro low hm
    simp only [Memory.wfFrom, Bool.and_eq_true, decide_eq_true_eq] at hm
    have hrest := ih hm.2
    by_cases hk : k = a
    · have hk' : (k != a) = false := by simp [hk]
      simp only [List.filter, hk']
      exact wfFrom_mono (by omega) hrest
    · have hk' : (k != a) = true := by simp [hk]
      simp only [List.filter, hk', Memory.wfFrom, Bool.and_eq_true, decide_eq_true_eq]
      exact ⟨hm.1, hrest⟩

theorem wfFrom_insert {a : Nat} {v : Byte} (ha : a < Config.memorySize) (hv : v ≠ Config.initByte) {m : Memory} :
    ∀ {low : Nat}, low ≤ a → m.wfFrom low = true → Memory.wfFrom low (Memory.insert a v m) = true := by
  induction m with
  | nil => intro low hl _; simp [Memory.insert, Memory.wfFrom, hl, ha, hv]
  | cons cell rest ih =>
    obtain ⟨k, w⟩ := cell
    intro low hl hm
    simp only [Memory.wfFrom, Bool.and_eq_true, decide_eq_true_eq] at hm
    simp only [Memory.insert]
    split
    · next h =>
        simp only [Memory.wfFrom, Bool.and_eq_true, decide_eq_true_eq]
        exact ⟨⟨⟨hl, ha⟩, hv⟩, ⟨⟨by omega, hm.1.1.2⟩, hm.1.2⟩, hm.2⟩
    · split
      · next h =>
          subst h
          simp only [Memory.wfFrom, Bool.and_eq_true, decide_eq_true_eq]
          exact ⟨⟨⟨hl, ha⟩, hv⟩, hm.2⟩
      · next h1 h2 =>
          simp only [Memory.wfFrom, Bool.and_eq_true, decide_eq_true_eq]
          exact ⟨hm.1, ih (by omega) hm.2⟩

/-- Every write keeps the canonical form. -/
theorem wf_write {m : Memory} (hm : m.wf = true) (a : Nat) (v : Byte) : (m.write a v).wf = true := by
  simp only [Memory.write]
  split
  · next ha =>
      split
      · exact wfFrom_filter a hm
      · next hv => exact wfFrom_insert ha hv (Nat.zero_le a) hm
  · exact hm

theorem wf_nil : Memory.wf [] = true := rfl

end Sys2Proof.Machine
end

