-- ==== Sys2Proof/Laws/Exec.lean ====
section
/-! SUPPORT. Said once: what a dispatch does. Every arm of `exec` is one dispatch of one rule, and a dispatch that
answers a next state is the epilogue of that rule in the rule's state. Later proofs cite `exec_next_iff`. -/

namespace Sys2Proof.Machine

/-- The condition of a branch (R125 to R132). -/
def condOf (i : Instr) (s : State) : Bool :=
  match i with
  | .bpl _ => !s.flag .n
  | .bmi _ => s.flag .n
  | .bvc _ => !s.flag .v
  | .bvs _ => s.flag .v
  | .bcc _ => !s.flag .c
  | .bcs _ => s.flag .c
  | .bne _ => !s.flag .z
  | .beq _ => s.flag .z
  | _ => false

/-- The rule that the arm of an instruction dispatches. -/
def ruleOf (i : Instr) (s : State) : State :=
  match i with
  | .adc m => ruleAdc (fetch m s)
  | .sbc m => ruleSbc (fetch m s)
  | .and m => setA ((fetch m s).a &&& (fetch m s).fetched) (fetch m s)
  | .ora m => setA ((fetch m s).a ||| (fetch m s).fetched) (fetch m s)
  | .eor m => setA ((fetch m s).a ^^^ (fetch m s).fetched) (fetch m s)
  | .cmp m => compareWith s.a (fetch m s)
  | .cpx m => compareWith s.x (fetch m s)
  | .cpy m => compareWith s.y (fetch m s)
  | .bit m => ruleBit (fetch m s)
  | .asl m => ruleAsl m (fetch m s)
  | .lsr m => ruleLsr m (fetch m s)
  | .rol m => ruleRol m (fetch m s)
  | .ror m => ruleRor m (fetch m s)
  | .inc m => storeCount ((fetch m s).fetched + 1) (fetch m s)
  | .dec m => storeCount ((fetch m s).fetched - 1) (fetch m s)
  | .inx => setX (s.x + 1) s
  | .dex => setX (s.x - 1) s
  | .iny => setY (s.y + 1) s
  | .dey => setY (s.y - 1) s
  | .lda m => setA (fetch m s).fetched (fetch m s)
  | .ldx m => setX (fetch m s).fetched (fetch m s)
  | .ldy m => setY (fetch m s).fetched (fetch m s)
  | .sta _ => s.write s.addressAbs s.a
  | .stx _ => s.write s.addressAbs s.x
  | .sty _ => s.write s.addressAbs s.y
  | .tax => setX s.a s
  | .tay => setY s.a s
  | .txa => setA s.x s
  | .tya => setA s.y s
  | .tsx => setX s.sp s
  | .txs => s.setSp s.x
  | .pha => push s.a s
  | .php => push (pushedStatus s.sr) s
  | .pla => setA (pull s).1 (pull s).2
  | .plp => (pull s).2.setSr (pulledStatus (pull s).1)
  | .bpl _ | .bmi _ | .bvc _ | .bvs _ | .bcc _ | .bcs _ | .bne _ | .beq _ => branchIf (condOf i) s
  | .jmp _ => s.setPc s.addressAbs
  | .jsr _ => (pushWord (s.pc - 1) s).setPc s.addressAbs
  | .rts => (pullWord s).2.setPc ((pullWord s).1 + 1)
  | .rti => returnFromTrap s
  | .brk => enterTrap s
  | .clc => s.setFlag .c false
  | .sec => s.setFlag .c true
  | .cli => s.setFlag .i false
  | .sei => s.setFlag .i true
  | .clv => s.setFlag .v false
  | .cld => s.setFlag .d false
  | .sed => s.setFlag .d true
  | .nop | .xxx _ => s

/-- Every arm of `exec` is the dispatch of one rule. -/
theorem exec_eq (i : Instr) (s : State) :
    exec i s = dispatchWith i (ruleOf i) (fun r => branchCycles (condOf i r) r) s := by
  cases i <;> rfl

/-- The count that a dispatch of `i` with opcode byte `op` sets (R167). -/
def cyclesOf (i : Instr) (op : Byte) (s : State) : Nat :=
  baseCycles i + (penalty i.mnemonic i.operand.mode (crossed i.operand (prologue op s)) +
    branchCycles (condOf i (ruleState op i.operand s)) (ruleState op i.operand s))

/-- What an instruction can do, said once: it answers a next state exactly when it has an opcode byte, and that state is
the epilogue of its rule. -/
theorem exec_next_iff {i : Instr} {s t : State} : exec i s = .next t ↔
    ∃ op, i.opcodeByte = some op ∧ t = epilogue (cyclesOf i op s) (ruleOf i (ruleState op i.operand s)) := by
  rw [exec_eq, dispatchWith]
  cases h : i.opcodeByte with
  | none => simp
  | some op => simp [cyclesOf, eq_comm]

/-- An instruction that has no opcode byte is refused (log 9). -/
theorem exec_none {i : Instr} (h : i.opcodeByte = none) (s : State) : exec i s = .refused .illFormed := by
  rw [exec_eq, dispatchWith, h]

/-- An instruction that has an opcode byte answers a next state. -/
theorem exec_some {i : Instr} {op : Byte} (h : i.opcodeByte = some op) (s : State) :
    exec i s = .next (epilogue (cyclesOf i op s) (ruleOf i (ruleState op i.operand s))) :=
  exec_next_iff.mpr ⟨op, h, rfl⟩

/-! ### The state in which a rule runs (R11) -/

variable (op : Byte) (m : Operand) (s : State)

@[simp] theorem ruleState_a : (ruleState op m s).a = s.a := by simp [ruleState]
@[simp] theorem ruleState_x : (ruleState op m s).x = s.x := by simp [ruleState]
@[simp] theorem ruleState_y : (ruleState op m s).y = s.y := by simp [ruleState]
@[simp] theorem ruleState_sp : (ruleState op m s).sp = s.sp := by simp [ruleState]
@[simp] theorem ruleState_sr : (ruleState op m s).sr = setFlag .u true s.sr := by simp [ruleState]
@[simp] theorem ruleState_mem : (ruleState op m s).mem = s.mem := by simp [ruleState]
@[simp] theorem ruleState_opcode : (ruleState op m s).opcode = op := by simp [ruleState]
@[simp] theorem ruleState_pc :
    (ruleState op m s).pc = s.pc + 1 + BitVec.ofNat 16 m.mode.operandBytes := by simp [ruleState]

@[simp] theorem ruleState_read (a : Addr) : (ruleState op m s).read a = s.read a :=
  read_of_mem_eq (ruleState_mem op m s) a

/-- The prologue moves PC and sets U, so only IMM's address depends on it. -/
theorem effectiveAddress_prologue (h : m.mode ≠ .imm) :
    effectiveAddress m (prologue op s) = effectiveAddress m s := by
  cases m <;> first | rfl | exact absurd rfl h

@[simp] theorem crossed_prologue : crossed m (prologue op s) = crossed m s := by cases m <;> rfl

/-- The address that a memory form's rule stores to or reads from (R72 to R82). -/
theorem ruleState_addressAbs (h : m.mode ≠ .imm) : (ruleState op m s).addressAbs = effectiveAddress m s := by
  rw [ruleState, resolve_addressAbs, effectiveAddress_prologue op m s h]

/-- `Fetch` in the rule's state gives the operand M of the dispatch (R84). -/
theorem fetch_ruleState : (fetch m (ruleState op m s)).fetched = operandOf m s := by cases m <;> rfl

end Sys2Proof.Machine
end

