-- ==== Sys2Proof/Laws/PerInstr.lean ====
section
/-! SUPPORT. Per-instruction lemmas about syntax. Family `Encodes`: a term is well formed exactly when it has an encoding,
so the modes that the rules list and the bytes that R64 lists by mnemonic agree. -/

namespace Sys2Proof.Laws.Encodes

/-- `i` is well formed exactly when it has an encoding. -/
def Statement (i : Instr) : Prop := i.WellFormed ↔ (encode i).isSome = true

theorem of_false {p : Bool} (h : p = false) : ¬(p = true) := by simp [h]

theorem adc (m : Operand) : Statement (.adc m) := by
  cases m <;> first | exact iff_of_true rfl rfl | exact iff_of_false (of_false rfl) (of_false rfl)

theorem and (m : Operand) : Statement (.and m) := by
  cases m <;> first | exact iff_of_true rfl rfl | exact iff_of_false (of_false rfl) (of_false rfl)

theorem ora (m : Operand) : Statement (.ora m) := by
  cases m <;> first | exact iff_of_true rfl rfl | exact iff_of_false (of_false rfl) (of_false rfl)

theorem eor (m : Operand) : Statement (.eor m) := by
  cases m <;> first | exact iff_of_true rfl rfl | exact iff_of_false (of_false rfl) (of_false rfl)

theorem sbc (m : Operand) : Statement (.sbc m) := by
  cases m <;> first | exact iff_of_true rfl rfl | exact iff_of_false (of_false rfl) (of_false rfl)

theorem cmp (m : Operand) : Statement (.cmp m) := by
  cases m <;> first | exact iff_of_true rfl rfl | exact iff_of_false (of_false rfl) (of_false rfl)

theorem cpx (m : Operand) : Statement (.cpx m) := by
  cases m <;> first | exact iff_of_true rfl rfl | exact iff_of_false (of_false rfl) (of_false rfl)

theorem cpy (m : Operand) : Statement (.cpy m) := by
  cases m <;> first | exact iff_of_true rfl rfl | exact iff_of_false (of_false rfl) (of_false rfl)

theorem bit (m : Operand) : Statement (.bit m) := by
  cases m <;> first | exact iff_of_true rfl rfl | exact iff_of_false (of_false rfl) (of_false rfl)

theorem asl (m : Operand) : Statement (.asl m) := by
  cases m <;> first | exact iff_of_true rfl rfl | exact iff_of_false (of_false rfl) (of_false rfl)

theorem lsr (m : Operand) : Statement (.lsr m) := by
  cases m <;> first | exact iff_of_true rfl rfl | exact iff_of_false (of_false rfl) (of_false rfl)

theorem rol (m : Operand) : Statement (.rol m) := by
  cases m <;> first | exact iff_of_true rfl rfl | exact iff_of_false (of_false rfl) (of_false rfl)

theorem ror (m : Operand) : Statement (.ror m) := by
  cases m <;> first | exact iff_of_true rfl rfl | exact iff_of_false (of_false rfl) (of_false rfl)

theorem inc (m : Operand) : Statement (.inc m) := by
  cases m <;> first | exact iff_of_true rfl rfl | exact iff_of_false (of_false rfl) (of_false rfl)

theorem dec (m : Operand) : Statement (.dec m) := by
  cases m <;> first | exact iff_of_true rfl rfl | exact iff_of_false (of_false rfl) (of_false rfl)

theorem inx : Statement .inx := iff_of_true rfl rfl

theorem dex : Statement .dex := iff_of_true rfl rfl

theorem iny : Statement .iny := iff_of_true rfl rfl

theorem dey : Statement .dey := iff_of_true rfl rfl

theorem lda (m : Operand) : Statement (.lda m) := by
  cases m <;> first | exact iff_of_true rfl rfl | exact iff_of_false (of_false rfl) (of_false rfl)

theorem ldx (m : Operand) : Statement (.ldx m) := by
  cases m <;> first | exact iff_of_true rfl rfl | exact iff_of_false (of_false rfl) (of_false rfl)

theorem ldy (m : Operand) : Statement (.ldy m) := by
  cases m <;> first | exact iff_of_true rfl rfl | exact iff_of_false (of_false rfl) (of_false rfl)

theorem sta (m : Operand) : Statement (.sta m) := by
  cases m <;> first | exact iff_of_true rfl rfl | exact iff_of_false (of_false rfl) (of_false rfl)

theorem stx (m : Operand) : Statement (.stx m) := by
  cases m <;> first | exact iff_of_true rfl rfl | exact iff_of_false (of_false rfl) (of_false rfl)

theorem sty (m : Operand) : Statement (.sty m) := by
  cases m <;> first | exact iff_of_true rfl rfl | exact iff_of_false (of_false rfl) (of_false rfl)

theorem tax : Statement .tax := iff_of_true rfl rfl

theorem tay : Statement .tay := iff_of_true rfl rfl

theorem txa : Statement .txa := iff_of_true rfl rfl

theorem tya : Statement .tya := iff_of_true rfl rfl

theorem tsx : Statement .tsx := iff_of_true rfl rfl

theorem txs : Statement .txs := iff_of_true rfl rfl

theorem pha : Statement .pha := iff_of_true rfl rfl

theorem php : Statement .php := iff_of_true rfl rfl

theorem pla : Statement .pla := iff_of_true rfl rfl

theorem plp : Statement .plp := iff_of_true rfl rfl

theorem bpl (r : Byte) : Statement (.bpl r) := iff_of_true rfl rfl

theorem bmi (r : Byte) : Statement (.bmi r) := iff_of_true rfl rfl

theorem bvc (r : Byte) : Statement (.bvc r) := iff_of_true rfl rfl

theorem bvs (r : Byte) : Statement (.bvs r) := iff_of_true rfl rfl

theorem bcc (r : Byte) : Statement (.bcc r) := iff_of_true rfl rfl

theorem bcs (r : Byte) : Statement (.bcs r) := iff_of_true rfl rfl

theorem bne (r : Byte) : Statement (.bne r) := iff_of_true rfl rfl

theorem beq (r : Byte) : Statement (.beq r) := iff_of_true rfl rfl

theorem jmp (m : Operand) : Statement (.jmp m) := by
  cases m <;> first | exact iff_of_true rfl rfl | exact iff_of_false (of_false rfl) (of_false rfl)

theorem jsr (a : Addr) : Statement (.jsr a) := iff_of_true rfl rfl

theorem rts : Statement .rts := iff_of_true rfl rfl

theorem rti : Statement .rti := iff_of_true rfl rfl

theorem brk : Statement .brk := iff_of_true rfl rfl

theorem clc : Statement .clc := iff_of_true rfl rfl

theorem sec : Statement .sec := iff_of_true rfl rfl

theorem cli : Statement .cli := iff_of_true rfl rfl

theorem sei : Statement .sei := iff_of_true rfl rfl

theorem clv : Statement .clv := iff_of_true rfl rfl

theorem cld : Statement .cld := iff_of_true rfl rfl

theorem sed : Statement .sed := iff_of_true rfl rfl

theorem nop : Statement .nop := iff_of_true rfl rfl

theorem xxx (op : Byte) : Statement (.xxx op) := by
  by_cases h : op ∈ illegalOpcodes <;>
    simp [Statement, Instr.WellFormed, Instr.wellFormed, encode, Instr.opcodeByte, Mnemonic.modes, Instr.mnemonic, Instr.operand,
      Operand.mode, h]

end Sys2Proof.Laws.Encodes
end

