-- ==== Sys2Proof/Laws/Complete.lean ====
section
/-! SUPPORT. Which terms complete: the per-instruction lemmas of `Encodes` put together, and the opcode byte of a
well-formed instruction. -/

namespace Sys2Proof.Machine

/-- A term is well formed exactly when it has an encoding. -/
theorem wellFormed_iff_encode (i : Instr) : i.WellFormed ↔ (encode i).isSome = true := by
  cases i with
  | adc m => exact Laws.Encodes.adc m
  | and m => exact Laws.Encodes.and m
  | ora m => exact Laws.Encodes.ora m
  | eor m => exact Laws.Encodes.eor m
  | sbc m => exact Laws.Encodes.sbc m
  | cmp m => exact Laws.Encodes.cmp m
  | cpx m => exact Laws.Encodes.cpx m
  | cpy m => exact Laws.Encodes.cpy m
  | bit m => exact Laws.Encodes.bit m
  | asl m => exact Laws.Encodes.asl m
  | lsr m => exact Laws.Encodes.lsr m
  | rol m => exact Laws.Encodes.rol m
  | ror m => exact Laws.Encodes.ror m
  | inc m => exact Laws.Encodes.inc m
  | dec m => exact Laws.Encodes.dec m
  | inx => exact Laws.Encodes.inx
  | dex => exact Laws.Encodes.dex
  | iny => exact Laws.Encodes.iny
  | dey => exact Laws.Encodes.dey
  | lda m => exact Laws.Encodes.lda m
  | ldx m => exact Laws.Encodes.ldx m
  | ldy m => exact Laws.Encodes.ldy m
  | sta m => exact Laws.Encodes.sta m
  | stx m => exact Laws.Encodes.stx m
  | sty m => exact Laws.Encodes.sty m
  | tax => exact Laws.Encodes.tax
  | tay => exact Laws.Encodes.tay
  | txa => exact Laws.Encodes.txa
  | tya => exact Laws.Encodes.tya
  | tsx => exact Laws.Encodes.tsx
  | txs => exact Laws.Encodes.txs
  | pha => exact Laws.Encodes.pha
  | php => exact Laws.Encodes.php
  | pla => exact Laws.Encodes.pla
  | plp => exact Laws.Encodes.plp
  | bpl r => exact Laws.Encodes.bpl r
  | bmi r => exact Laws.Encodes.bmi r
  | bvc r => exact Laws.Encodes.bvc r
  | bvs r => exact Laws.Encodes.bvs r
  | bcc r => exact Laws.Encodes.bcc r
  | bcs r => exact Laws.Encodes.bcs r
  | bne r => exact Laws.Encodes.bne r
  | beq r => exact Laws.Encodes.beq r
  | jmp m => exact Laws.Encodes.jmp m
  | jsr a => exact Laws.Encodes.jsr a
  | rts => exact Laws.Encodes.rts
  | rti => exact Laws.Encodes.rti
  | brk => exact Laws.Encodes.brk
  | clc => exact Laws.Encodes.clc
  | sec => exact Laws.Encodes.sec
  | cli => exact Laws.Encodes.cli
  | sei => exact Laws.Encodes.sei
  | clv => exact Laws.Encodes.clv
  | cld => exact Laws.Encodes.cld
  | sed => exact Laws.Encodes.sed
  | nop => exact Laws.Encodes.nop
  | xxx op => exact Laws.Encodes.xxx op

/-- A well-formed instruction has an opcode byte (R63, R64). -/
theorem exists_opcodeByte {i : Instr} (h : i.WellFormed) : ∃ op, i.opcodeByte = some op := by
  have h' := (wellFormed_iff_encode i).mp h
  cases e : i.opcodeByte with
  | none => simp [encode, e] at h'
  | some op => exact ⟨op, rfl⟩

/-- A term with an opcode byte is well formed. -/
theorem wellFormed_of_opcodeByte {i : Instr} {op : Byte} (h : i.opcodeByte = some op) : i.WellFormed :=
  (wellFormed_iff_encode i).mpr (by simp [encode, h])

/-- An instruction whose opcode byte is known by evaluation completes with the epilogue of its rule. -/
theorem exec_wellFormed {i : Instr} (h : i.WellFormed) (s : State) : ∃ op, i.opcodeByte = some op ∧
    exec i s = .next (epilogue (cyclesOf i op s) (ruleOf i (ruleState op i.operand s))) := by
  obtain ⟨op, e⟩ := exists_opcodeByte h
  exact ⟨op, e, exec_some e s⟩

end Sys2Proof.Machine
end

