-- ==== Sys2Proof/Tests/Slice0.lean ====
section
/-! SUPPORT. The model's own tests: the WellFormed smoke test, words written out from the spec's encodings
(30_encoding.md R58, R64), one-dispatch cases from the spec's vectors (95_test_vectors.md V1 to V144 and its sections 3
and 4), and a witness for the hypotheses of each obligation. Every expected value is the spec's. -/

namespace Sys2Proof.Tests

open Sys2Proof.Machine

/-! ### Small states -/

/-- An Idle state with the vectors' defaults (SP FD, SR 20, all else 0): the bytes at an address, PC there. -/
def at_ (pc : Addr) (bytes : List Byte) : State :=
  let s : State := { State.reset with sp := 0xFD, sr := 0x20, pc := pc, cycles := 0 }
  hostWriteBytes pc.toNat bytes s

/-- The bytes at 0x0200. -/
def at0200 (bytes : List Byte) : State := at_ 0x0200 bytes

/-- The state with one more byte of memory. -/
def withByte (a : Nat) (v : Byte) (s : State) : State := hostWrite a v s

/-- What `f` reads after one dispatch of the instruction at PC. -/
def after {α : Type} (s : State) (f : State → α) : Option α :=
  match exec (fetchInstr s) s with
  | .next t => some (f t)
  | _ => none

/-- A byte of memory after one dispatch. -/
def byteAt (a : Nat) (t : State) : Byte := t.mem.read a

/-! ### WellFormed: each check refuses an ill-formed term -/

/-- A mode that the mnemonic does not have (R111, R97, R109, R110, R133, R102, R98). -/
theorem test_wellFormed_refuses_foreign_modes :
    ¬ (Instr.sta (.imm 5)).WellFormed ∧ ¬ (Instr.bit (.imm 5)).WellFormed ∧ ¬ (Instr.ldx (.zpx 5)).WellFormed ∧
    ¬ (Instr.ldy (.zpy 5)).WellFormed ∧ ¬ (Instr.jmp (.abx 5)).WellFormed ∧ ¬ (Instr.inc .imp).WellFormed ∧
    ¬ (Instr.asl (.imm 5)).WellFormed ∧ ¬ (Instr.lda (.ind 5)).WellFormed ∧ ¬ (Instr.cpx (.zpx 5)).WellFormed ∧
    ¬ (Instr.adc (.rel 5)).WellFormed := by decide

/-- A documented byte is no illegal opcode (R65). -/
theorem test_wellFormed_refuses_documented_xxx :
    ¬ (Instr.xxx 0xA9).WellFormed ∧ ¬ (Instr.xxx 0x00).WellFormed ∧ ¬ (Instr.xxx 0xEA).WellFormed := by decide

/-- The check accepts each mode's boundary operands. -/
theorem test_wellFormed_accepts :
    (Instr.lda (.imm 0xFF)).WellFormed ∧ (Instr.stx (.zpy 0x00)).WellFormed ∧ (Instr.jmp (.ind 0xFFFF)).WellFormed ∧
    (Instr.asl .imp).WellFormed ∧ (Instr.xxx 0x02).WellFormed ∧ (Instr.xxx 0xFF).WellFormed := by decide

/-- An ill-formed term has no encoding and is refused by name (log 9). -/
theorem test_illFormed_is_refused :
    encode (.sta (.imm 5)) = none ∧ exec (.sta (.imm 5)) State.reset = .refused .illFormed := ⟨by decide, rfl⟩

/-! ### Decoding: every row of the opcode table, its word written out from R58 and R64

The operand bytes are 0x34 and 0x12; a word that leaves bytes over shows the instruction's length. -/

theorem test_decode_adc :
    [0x61, 0x65, 0x69, 0x6D, 0x71, 0x75, 0x79, 0x7D].map (fun op : Byte => decode [op, 0x34, 0x12]) =
    [
      .ok (.adc (.izx 0x34), [0x12]),
      .ok (.adc (.zp0 0x34), [0x12]),
      .ok (.adc (.imm 0x34), [0x12]),
      .ok (.adc (.abs 0x1234), []),
      .ok (.adc (.izy 0x34), [0x12]),
      .ok (.adc (.zpx 0x34), [0x12]),
      .ok (.adc (.aby 0x1234), []),
      .ok (.adc (.abx 0x1234), [])] := by decide

theorem test_decode_sbc :
    [0xE1, 0xE5, 0xE9, 0xED, 0xF1, 0xF5, 0xF9, 0xFD].map (fun op : Byte => decode [op, 0x34, 0x12]) =
    [
      .ok (.sbc (.izx 0x34), [0x12]),
      .ok (.sbc (.zp0 0x34), [0x12]),
      .ok (.sbc (.imm 0x34), [0x12]),
      .ok (.sbc (.abs 0x1234), []),
      .ok (.sbc (.izy 0x34), [0x12]),
      .ok (.sbc (.zpx 0x34), [0x12]),
      .ok (.sbc (.aby 0x1234), []),
      .ok (.sbc (.abx 0x1234), [])] := by decide

theorem test_decode_and :
    [0x21, 0x25, 0x29, 0x2D, 0x31, 0x35, 0x39, 0x3D].map (fun op : Byte => decode [op, 0x34, 0x12]) =
    [
      .ok (.and (.izx 0x34), [0x12]),
      .ok (.and (.zp0 0x34), [0x12]),
      .ok (.and (.imm 0x34), [0x12]),
      .ok (.and (.abs 0x1234), []),
      .ok (.and (.izy 0x34), [0x12]),
      .ok (.and (.zpx 0x34), [0x12]),
      .ok (.and (.aby 0x1234), []),
      .ok (.and (.abx 0x1234), [])] := by decide

theorem test_decode_ora :
    [0x01, 0x05, 0x09, 0x0D, 0x11, 0x15, 0x19, 0x1D].map (fun op : Byte => decode [op, 0x34, 0x12]) =
    [
      .ok (.ora (.izx 0x34), [0x12]),
      .ok (.ora (.zp0 0x34), [0x12]),
      .ok (.ora (.imm 0x34), [0x12]),
      .ok (.ora (.abs 0x1234), []),
      .ok (.ora (.izy 0x34), [0x12]),
      .ok (.ora (.zpx 0x34), [0x12]),
      .ok (.ora (.aby 0x1234), []),
      .ok (.ora (.abx 0x1234), [])] := by decide

theorem test_decode_eor :
    [0x41, 0x45, 0x49, 0x4D, 0x51, 0x55, 0x59, 0x5D].map (fun op : Byte => decode [op, 0x34, 0x12]) =
    [
      .ok (.eor (.izx 0x34), [0x12]),
      .ok (.eor (.zp0 0x34), [0x12]),
      .ok (.eor (.imm 0x34), [0x12]),
      .ok (.eor (.abs 0x1234), []),
      .ok (.eor (.izy 0x34), [0x12]),
      .ok (.eor (.zpx 0x34), [0x12]),
      .ok (.eor (.aby 0x1234), []),
      .ok (.eor (.abx 0x1234), [])] := by decide

theorem test_decode_cmp :
    [0xC1, 0xC5, 0xC9, 0xCD, 0xD1, 0xD5, 0xD9, 0xDD].map (fun op : Byte => decode [op, 0x34, 0x12]) =
    [
      .ok (.cmp (.izx 0x34), [0x12]),
      .ok (.cmp (.zp0 0x34), [0x12]),
      .ok (.cmp (.imm 0x34), [0x12]),
      .ok (.cmp (.abs 0x1234), []),
      .ok (.cmp (.izy 0x34), [0x12]),
      .ok (.cmp (.zpx 0x34), [0x12]),
      .ok (.cmp (.aby 0x1234), []),
      .ok (.cmp (.abx 0x1234), [])] := by decide

theorem test_decode_cpx :
    [0xE0, 0xE4, 0xEC].map (fun op : Byte => decode [op, 0x34, 0x12]) =
    [
      .ok (.cpx (.imm 0x34), [0x12]),
      .ok (.cpx (.zp0 0x34), [0x12]),
      .ok (.cpx (.abs 0x1234), [])] := by decide

theorem test_decode_cpy :
    [0xC0, 0xC4, 0xCC].map (fun op : Byte => decode [op, 0x34, 0x12]) =
    [
      .ok (.cpy (.imm 0x34), [0x12]),
      .ok (.cpy (.zp0 0x34), [0x12]),
      .ok (.cpy (.abs 0x1234), [])] := by decide

theorem test_decode_bit :
    [0x24, 0x2C].map (fun op : Byte => decode [op, 0x34, 0x12]) =
    [
      .ok (.bit (.zp0 0x34), [0x12]),
      .ok (.bit (.abs 0x1234), [])] := by decide

theorem test_decode_asl :
    [0x06, 0x0A, 0x0E, 0x16, 0x1E].map (fun op : Byte => decode [op, 0x34, 0x12]) =
    [
      .ok (.asl (.zp0 0x34), [0x12]),
      .ok (.asl .imp, [0x34, 0x12]),
      .ok (.asl (.abs 0x1234), []),
      .ok (.asl (.zpx 0x34), [0x12]),
      .ok (.asl (.abx 0x1234), [])] := by decide

theorem test_decode_lsr :
    [0x46, 0x4A, 0x4E, 0x56, 0x5E].map (fun op : Byte => decode [op, 0x34, 0x12]) =
    [
      .ok (.lsr (.zp0 0x34), [0x12]),
      .ok (.lsr .imp, [0x34, 0x12]),
      .ok (.lsr (.abs 0x1234), []),
      .ok (.lsr (.zpx 0x34), [0x12]),
      .ok (.lsr (.abx 0x1234), [])] := by decide

theorem test_decode_rol :
    [0x26, 0x2A, 0x2E, 0x36, 0x3E].map (fun op : Byte => decode [op, 0x34, 0x12]) =
    [
      .ok (.rol (.zp0 0x34), [0x12]),
      .ok (.rol .imp, [0x34, 0x12]),
      .ok (.rol (.abs 0x1234), []),
      .ok (.rol (.zpx 0x34), [0x12]),
      .ok (.rol (.abx 0x1234), [])] := by decide

theorem test_decode_ror :
    [0x66, 0x6A, 0x6E, 0x76, 0x7E].map (fun op : Byte => decode [op, 0x34, 0x12]) =
    [
      .ok (.ror (.zp0 0x34), [0x12]),
      .ok (.ror .imp, [0x34, 0x12]),
      .ok (.ror (.abs 0x1234), []),
      .ok (.ror (.zpx 0x34), [0x12]),
      .ok (.ror (.abx 0x1234), [])] := by decide

theorem test_decode_inc :
    [0xE6, 0xEE, 0xF6, 0xFE].map (fun op : Byte => decode [op, 0x34, 0x12]) =
    [
      .ok (.inc (.zp0 0x34), [0x12]),
      .ok (.inc (.abs 0x1234), []),
      .ok (.inc (.zpx 0x34), [0x12]),
      .ok (.inc (.abx 0x1234), [])] := by decide

theorem test_decode_dec :
    [0xC6, 0xCE, 0xD6, 0xDE].map (fun op : Byte => decode [op, 0x34, 0x12]) =
    [
      .ok (.dec (.zp0 0x34), [0x12]),
      .ok (.dec (.abs 0x1234), []),
      .ok (.dec (.zpx 0x34), [0x12]),
      .ok (.dec (.abx 0x1234), [])] := by decide

/-- The shift instructions that have one row. -/
theorem test_decode_shift :
    [0xE8, 0xCA, 0xC8, 0x88].map (fun op : Byte => decode [op, 0x34, 0x12]) =
    [
      .ok (.inx, [0x34, 0x12]),
      .ok (.dex, [0x34, 0x12]),
      .ok (.iny, [0x34, 0x12]),
      .ok (.dey, [0x34, 0x12])] := by decide

theorem test_decode_lda :
    [0xA1, 0xA5, 0xA9, 0xAD, 0xB1, 0xB5, 0xB9, 0xBD].map (fun op : Byte => decode [op, 0x34, 0x12]) =
    [
      .ok (.lda (.izx 0x34), [0x12]),
      .ok (.lda (.zp0 0x34), [0x12]),
      .ok (.lda (.imm 0x34), [0x12]),
      .ok (.lda (.abs 0x1234), []),
      .ok (.lda (.izy 0x34), [0x12]),
      .ok (.lda (.zpx 0x34), [0x12]),
      .ok (.lda (.aby 0x1234), []),
      .ok (.lda (.abx 0x1234), [])] := by decide

theorem test_decode_ldx :
    [0xA2, 0xA6, 0xAE, 0xB6, 0xBE].map (fun op : Byte => decode [op, 0x34, 0x12]) =
    [
      .ok (.ldx (.imm 0x34), [0x12]),
      .ok (.ldx (.zp0 0x34), [0x12]),
      .ok (.ldx (.abs 0x1234), []),
      .ok (.ldx (.zpy 0x34), [0x12]),
      .ok (.ldx (.aby 0x1234), [])] := by decide

theorem test_decode_ldy :
    [0xA0, 0xA4, 0xAC, 0xB4, 0xBC].map (fun op : Byte => decode [op, 0x34, 0x12]) =
    [
      .ok (.ldy (.imm 0x34), [0x12]),
      .ok (.ldy (.zp0 0x34), [0x12]),
      .ok (.ldy (.abs 0x1234), []),
      .ok (.ldy (.zpx 0x34), [0x12]),
      .ok (.ldy (.abx 0x1234), [])] := by decide

theorem test_decode_sta :
    [0x81, 0x85, 0x8D, 0x91, 0x95, 0x99, 0x9D].map (fun op : Byte => decode [op, 0x34, 0x12]) =
    [
      .ok (.sta (.izx 0x34), [0x12]),
      .ok (.sta (.zp0 0x34), [0x12]),
      .ok (.sta (.abs 0x1234), []),
      .ok (.sta (.izy 0x34), [0x12]),
      .ok (.sta (.zpx 0x34), [0x12]),
      .ok (.sta (.aby 0x1234), []),
      .ok (.sta (.abx 0x1234), [])] := by decide

theorem test_decode_stx :
    [0x86, 0x8E, 0x96].map (fun op : Byte => decode [op, 0x34, 0x12]) =
    [
      .ok (.stx (.zp0 0x34), [0x12]),
      .ok (.stx (.abs 0x1234), []),
      .ok (.stx (.zpy 0x34), [0x12])] := by decide

theorem test_decode_sty :
    [0x84, 0x8C, 0x94].map (fun op : Byte => decode [op, 0x34, 0x12]) =
    [
      .ok (.sty (.zp0 0x34), [0x12]),
      .ok (.sty (.abs 0x1234), []),
      .ok (.sty (.zpx 0x34), [0x12])] := by decide

/-- The load instructions that have one row. -/
theorem test_decode_load :
    [0xAA, 0xA8, 0x8A, 0x98, 0xBA, 0x9A].map (fun op : Byte => decode [op, 0x34, 0x12]) =
    [
      .ok (.tax, [0x34, 0x12]),
      .ok (.tay, [0x34, 0x12]),
      .ok (.txa, [0x34, 0x12]),
      .ok (.tya, [0x34, 0x12]),
      .ok (.tsx, [0x34, 0x12]),
      .ok (.txs, [0x34, 0x12])] := by decide

/-- The stack instructions that have one row. -/
theorem test_decode_stack :
    [0x48, 0x08, 0x68, 0x28].map (fun op : Byte => decode [op, 0x34, 0x12]) =
    [
      .ok (.pha, [0x34, 0x12]),
      .ok (.php, [0x34, 0x12]),
      .ok (.pla, [0x34, 0x12]),
      .ok (.plp, [0x34, 0x12])] := by decide

theorem test_decode_jmp :
    [0x4C, 0x6C].map (fun op : Byte => decode [op, 0x34, 0x12]) =
    [
      .ok (.jmp (.abs 0x1234), []),
      .ok (.jmp (.ind 0x1234), [])] := by decide

/-- The control instructions that have one row. -/
theorem test_decode_control :
    [0x10, 0x30, 0x50, 0x70, 0x90, 0xB0, 0xD0, 0xF0, 0x20, 0x60, 0x40, 0x00].map (fun op : Byte => decode [op, 0x34, 0x12]) =
    [
      .ok (.bpl 0x34, [0x12]),
      .ok (.bmi 0x34, [0x12]),
      .ok (.bvc 0x34, [0x12]),
      .ok (.bvs 0x34, [0x12]),
      .ok (.bcc 0x34, [0x12]),
      .ok (.bcs 0x34, [0x12]),
      .ok (.bne 0x34, [0x12]),
      .ok (.beq 0x34, [0x12]),
      .ok (.jsr 0x1234, []),
      .ok (.rts, [0x34, 0x12]),
      .ok (.rti, [0x34, 0x12]),
      .ok (.brk, [0x34, 0x12])] := by decide

/-- The flags instructions that have one row. -/
theorem test_decode_flags :
    [0x18, 0x38, 0x58, 0x78, 0xB8, 0xD8, 0xF8, 0xEA].map (fun op : Byte => decode [op, 0x34, 0x12]) =
    [
      .ok (.clc, [0x34, 0x12]),
      .ok (.sec, [0x34, 0x12]),
      .ok (.cli, [0x34, 0x12]),
      .ok (.sei, [0x34, 0x12]),
      .ok (.clv, [0x34, 0x12]),
      .ok (.cld, [0x34, 0x12]),
      .ok (.sed, [0x34, 0x12]),
      .ok (.nop, [0x34, 0x12])] := by decide

/-- Every illegal byte is a one-byte no-op that keeps the bytes after it (R65, R146). -/
theorem test_decode_illegal :
    illegalOpcodes.all (fun op => decide (decode [op, 0x34, 0x12] = .ok (.xxx op, [0x34, 0x12]))) = true := by decide

/-- Bytes can only be missing (R66). -/
theorem test_decode_missing_bytes :
    decode [] = .error .noOpcode ∧ decode [0xA9] = .error (.missingOperand 0xA9) ∧
    decode [0x4C, 0x00] = .error (.missingOperand 0x4C) := by decide

/-- The opcode table's numbering of bits: byte 0 lowest (R58); absent operand bits are zero. -/
theorem test_decodeTableWord :
    decodeTableWord 8 0xEA = some .nop ∧ decodeTableWord 16 0x05A9 = some (.lda (.imm 0x05)) ∧
    decodeTableWord 24 0x12346C = some (.jmp (.ind 0x1234)) ∧ decodeTableWord 8 0x4C = some (.jmp (.abs 0)) := by decide

/-! ### Base counts: the `cycles` column of the opcode table (R169), by high nibble; 0 stands for an illegal byte -/

/-- The base counts of the sixteen opcode bytes of one high nibble. -/
def countsOfRow (high : Nat) : List Nat :=
  (List.range 16).map fun low =>
    let op : Byte := BitVec.ofNat 8 (16 * high + low)
    if illegalOpcodes.contains op then 0 else baseCycles (decodeBytes op 0 0)

theorem test_base_counts_0 :
    countsOfRow 0x0 = [7, 6, 0, 0, 0, 3, 5, 0, 3, 2, 2, 0, 0, 4, 6, 0] ∧
    countsOfRow 0x1 = [2, 5, 0, 0, 0, 4, 6, 0, 2, 4, 0, 0, 0, 4, 7, 0] ∧
    countsOfRow 0x2 = [6, 6, 0, 0, 3, 3, 5, 0, 4, 2, 2, 0, 4, 4, 6, 0] ∧
    countsOfRow 0x3 = [2, 5, 0, 0, 0, 4, 6, 0, 2, 4, 0, 0, 0, 4, 7, 0] ∧
    countsOfRow 0x4 = [6, 6, 0, 0, 0, 3, 5, 0, 3, 2, 2, 0, 3, 4, 6, 0] ∧
    countsOfRow 0x5 = [2, 5, 0, 0, 0, 4, 6, 0, 2, 4, 0, 0, 0, 4, 7, 0] ∧
    countsOfRow 0x6 = [6, 6, 0, 0, 0, 3, 5, 0, 4, 2, 2, 0, 5, 4, 6, 0] ∧
    countsOfRow 0x7 = [2, 5, 0, 0, 0, 4, 6, 0, 2, 4, 0, 0, 0, 4, 7, 0] := by decide +kernel

theorem test_base_counts_8 :
    countsOfRow 0x8 = [0, 6, 0, 0, 3, 3, 3, 0, 2, 0, 2, 0, 4, 4, 4, 0] ∧
    countsOfRow 0x9 = [2, 6, 0, 0, 4, 4, 4, 0, 2, 5, 2, 0, 0, 5, 0, 0] ∧
    countsOfRow 0xA = [2, 6, 2, 0, 3, 3, 3, 0, 2, 2, 2, 0, 4, 4, 4, 0] ∧
    countsOfRow 0xB = [2, 5, 0, 0, 4, 4, 4, 0, 2, 4, 2, 0, 4, 4, 4, 0] ∧
    countsOfRow 0xC = [2, 6, 0, 0, 3, 3, 5, 0, 2, 2, 2, 0, 4, 4, 6, 0] ∧
    countsOfRow 0xD = [2, 5, 0, 0, 0, 4, 6, 0, 2, 4, 0, 0, 0, 4, 7, 0] ∧
    countsOfRow 0xE = [2, 6, 0, 0, 3, 3, 5, 0, 2, 2, 2, 0, 4, 4, 6, 0] ∧
    countsOfRow 0xF = [2, 5, 0, 0, 0, 4, 6, 0, 2, 4, 0, 0, 0, 4, 7, 0] := by decide +kernel

/-- The bytes that can take the page-crossing penalty: the table's `page_penalty` column (R168). -/
theorem test_penalty_bytes :
    ((List.range 256).map (BitVec.ofNat 8)).filter (fun op : Byte =>
      let i := decodeBytes op 0 0
      penalty i.mnemonic i.operand.mode true == 1) =
    [0x11, 0x19, 0x1D, 0x31, 0x39, 0x3D, 0x51, 0x59, 0x5D, 0x71, 0x79, 0x7D,
     0xB1, 0xB9, 0xBC, 0xBD, 0xBE, 0xD1, 0xD9, 0xDD, 0xF1, 0xF9, 0xFD] := by decide +kernel

/-! ### Addressing modes (95_test_vectors.md section 2.1) -/

/-- V3, V4: zero-page sums wrap in page 0 (R75, R76). -/
theorem test_zero_page_sums_wrap :
    effectiveAddress (.zpx 0xF0) { at0200 [] with x := 0x20 } = 0x0010 ∧
    effectiveAddress (.zpy 0xFF) { at0200 [] with y := 0x01 } = 0x0000 := by decide

/-- V6, V7, V9: the indexed sum is 16 bits wide and signals a page crossing (R78, R79, R83). -/
theorem test_indexed_sums :
    effectiveAddress (.abx 0x12F0) { at0200 [] with x := 0x20 } = 0x1310 ∧
    crossed (.abx 0x12F0) { at0200 [] with x := 0x20 } = true ∧
    crossed (.abx 0x1200) { at0200 [] with x := 0x20 } = false ∧
    effectiveAddress (.aby 0xFFFF) { at0200 [] with y := 0x02 } = 0x0001 := by decide

/-- V10, V11: the page-wrap defect of INDIRECT, and an ordinary pointer (R80). -/
theorem test_indirect_defect :
    effectiveAddress (.ind 0x12FF) (withByte 0x1200 0x56 (withByte 0x12FF 0x34 (withByte 0x1300 0x78 (at0200 [])))) = 0x5634 ∧
    effectiveAddress (.ind 0x1200) (withByte 0x1200 0x34 (withByte 0x1201 0x56 (at0200 []))) = 0x5634 := by decide

/-- V13, V15, V17: zero-page pointers wrap in page 0, and IZY indexes after the pointer (R81, R82). -/
theorem test_zero_page_pointers :
    effectiveAddress (.izx 0xFB) { withByte 0x0000 0x30 (at0200 []) with x := 0x04 } = 0x3000 ∧
    effectiveAddress (.izy 0x20) { withByte 0x20 0xF8 (withByte 0x21 0x30 (at0200 [])) with y := 0x10 } = 0x3108 ∧
    effectiveAddress (.izy 0xFF) (withByte 0x0000 0x50 (at0200 [])) = 0x5000 := by decide

/-! ### One dispatch of each instruction (95_test_vectors.md section 2): at most two cases each -/

/-- V20 (R89). -/
theorem test_adc :
    after { at0200 [0x69, 0x02] with a := 0xFF } (fun t => (t.a, t.sr)) =
      some (0x01, 0x21) := by decide

/-- V27 (R89). -/
theorem test_adc_second :
    after { at0200 [0x69, 0x01] with a := 0x09, sr := 0x28 } (fun t => (t.a, t.sr)) =
      some (0x0A, 0x28) := by decide

/-- V30 (R90). -/
theorem test_sbc :
    after { at0200 [0xE9, 0x03] with a := 0x05, sr := 0x20 } (fun t => (t.a, t.sr)) =
      some (0x01, 0x21) := by decide

/-- V32 (R90). -/
theorem test_sbc_second :
    after { at0200 [0xE9, 0x01] with a := 0x80, sr := 0x21 } (fun t => (t.a, t.sr)) =
      some (0x7F, 0x61) := by decide

/-- V36 (R91). -/
theorem test_and :
    after { at0200 [0x29, 0x0F] with a := 0xF0 } (fun t => (t.a, t.sr)) =
      some (0x00, 0x22) := by decide

/-- V37 (R92). -/
theorem test_ora :
    after { at0200 [0x09, 0x80] with a := 0x01 } (fun t => (t.a, t.sr)) =
      some (0x81, 0xA0) := by decide

/-- V39 (R93). -/
theorem test_eor :
    after { at0200 [0x49, 0x0F] with a := 0xFF } (fun t => (t.a, t.sr)) =
      some (0xF0, 0xA0) := by decide

/-- V43 (R94). -/
theorem test_cmp :
    after { at0200 [0xC9, 0x00] with a := 0x80 } (fun t => t.sr) =
      some 0xA1 := by decide

/-- V44 (R94). -/
theorem test_cmp_second :
    after { at0200 [0xC9, 0x01] with a := 0x00 } (fun t => t.sr) =
      some 0xA0 := by decide

/-- V45 (R95). -/
theorem test_cpx :
    after { at0200 [0xE0, 0x05] with x := 0x05 } (fun t => t.sr) =
      some 0x23 := by decide

/-- V48 (R96). -/
theorem test_cpy :
    after { at0200 [0xC0, 0x80] with y := 0x7F } (fun t => t.sr) =
      some 0xA0 := by decide

/-- V50 (R97). -/
theorem test_bit :
    after { withByte 0x0010 0xC0 (at0200 [0x24, 0x10]) with a := 0x3F } (fun t => t.sr) =
      some 0xE2 := by decide

/-- V51 (R97). -/
theorem test_bit_second :
    after { withByte 0x0300 0x00 (at0200 [0x2C, 0x00, 0x03]) with a := 0xFF, sr := 0xE0 } (fun t => t.sr) =
      some 0x22 := by decide

/-- V53 (R98). -/
theorem test_asl :
    after { at0200 [0x0A] with a := 0x80 } (fun t => (t.a, t.sr)) =
      some (0x00, 0x23) := by decide

/-- V55 (R98). -/
theorem test_asl_second :
    after { withByte 0x1310 0x01 (at0200 [0x1E, 0xF0, 0x12]) with x := 0x20 } (fun t => (byteAt 0x1310 t, t.sr)) =
      some (0x02, 0x20) := by decide

/-- V56 (R99). -/
theorem test_lsr :
    after (withByte 0x0010 0x03 (at0200 [0x46, 0x10])) (fun t => (t.sr, byteAt 0x0010 t)) =
      some (0x21, 0x01) := by decide

/-- V58 (R99). -/
theorem test_lsr_second :
    after { at0200 [0x4A] with a := 0x80, sr := 0xA1 } (fun t => (t.a, t.sr)) =
      some (0x40, 0x20) := by decide

/-- V59 (R100). -/
theorem test_rol :
    after { at0200 [0x2A] with a := 0x40, sr := 0x21 } (fun t => (t.a, t.sr)) =
      some (0x81, 0xA0) := by decide

/-- V60 (R100). -/
theorem test_rol_second :
    after { at0200 [0x2A] with a := 0x80, sr := 0x20 } (fun t => (t.a, t.sr)) =
      some (0x00, 0x23) := by decide

/-- V62 (R101). -/
theorem test_ror :
    after { at0200 [0x6A] with a := 0x02, sr := 0x21 } (fun t => (t.a, t.sr)) =
      some (0x81, 0xA0) := by decide

/-- V64 (R101). -/
theorem test_ror_second :
    after { withByte 0x0010 0x00 (at0200 [0x66, 0x10]) with sr := 0x21 } (fun t => (t.sr, byteAt 0x0010 t)) =
      some (0xA0, 0x80) := by decide

/-- V66 (R102). -/
theorem test_inc :
    after (withByte 0x0300 0x7F (at0200 [0xEE, 0x00, 0x03])) (fun t => (t.sr, byteAt 0x0300 t)) =
      some (0xA0, 0x80) := by decide

/-- V67 (R102). -/
theorem test_inc_second :
    after { withByte 0x0001 0x10 (at0200 [0xF6, 0xFF]) with x := 0x02 } (fun t => (byteAt 0x0001 t, t.sr)) =
      some (0x11, 0x20) := by decide

/-- V68 (R103). -/
theorem test_dec :
    after (withByte 0x0300 0x01 (at0200 [0xCE, 0x00, 0x03])) (fun t => (t.sr, byteAt 0x0300 t)) =
      some (0x22, 0x00) := by decide

/-- V69 (R103). -/
theorem test_dec_second :
    after (withByte 0x0010 0x00 (at0200 [0xC6, 0x10])) (fun t => (t.sr, byteAt 0x0010 t)) =
      some (0xA0, 0xFF) := by decide

/-- V71 (R104). -/
theorem test_inx :
    after { at0200 [0xE8] with x := 0xFF } (fun t => (t.x, t.sr)) =
      some (0x00, 0x22) := by decide

/-- V73 (R105). -/
theorem test_dex :
    after { at0200 [0xCA] with x := 0x00 } (fun t => (t.x, t.sr)) =
      some (0xFF, 0xA0) := by decide

/-- V74 (R106). -/
theorem test_iny :
    after { at0200 [0xC8] with y := 0x00 } (fun t => (t.y, t.sr)) =
      some (0x01, 0x20) := by decide

/-- V76 (R107). -/
theorem test_dey :
    after { at0200 [0x88] with y := 0x00 } (fun t => (t.y, t.sr)) =
      some (0xFF, 0xA0) := by decide

/-- V15 (R82). -/
theorem test_lda :
    after { withByte 0x3108 0x44 (withByte 0x0021 0x30 (withByte 0x0020 0xF8 (at0200 [0xB1, 0x20]))) with y := 0x10 } (fun t => (t.a, t.sr, t.cycles)) =
      some (0x44, 0x20, 6) := by decide

/-- V78 (R108). -/
theorem test_lda_second :
    after { at0200 [0xA9, 0x00] with a := 0x12 } (fun t => (t.a, t.sr, t.cycles)) =
      some (0x00, 0x22, 2) := by decide

/-- V81 (R109). -/
theorem test_ldx :
    after { withByte 0x0100 0x5C (at0200 [0xBE, 0xFF, 0x00]) with y := 0x01 } (fun t => (t.x, t.sr)) =
      some (0x5C, 0x20) := by decide

/-- V83 (R110). -/
theorem test_ldy :
    after { withByte 0x0015 0xF0 (at0200 [0xBC, 0x10, 0x00]) with x := 0x05 } (fun t => (t.y, t.sr)) =
      some (0xF0, 0xA0) := by decide

/-- V8 (R78). -/
theorem test_sta :
    after { at0200 [0x9D, 0xF0, 0x12] with a := 0x55, x := 0x20 } (fun t => (byteAt 0x1310 t, t.sr)) =
      some (0x55, 0x20) := by decide

/-- V85 (R111). -/
theorem test_sta_second :
    after { at0200 [0x95, 0xFF] with a := 0x42, x := 0x01 } (fun t => (byteAt 0x0000 t, t.sr)) =
      some (0x42, 0x20) := by decide

/-- V87 (R112). -/
theorem test_stx :
    after { at0200 [0x96, 0xFF] with x := 0x07, y := 0x02 } (fun t => (byteAt 0x0001 t, t.sr)) =
      some (0x07, 0x20) := by decide

/-- V88 (R113). -/
theorem test_sty :
    after { at0200 [0x94, 0x0F] with x := 0x01, y := 0x09 } (fun t => (byteAt 0x0010 t, t.sr)) =
      some (0x09, 0x20) := by decide

/-- V90 (R114). -/
theorem test_tax :
    after { at0200 [0xAA] with a := 0xFE } (fun t => (t.x, t.sr)) =
      some (0xFE, 0xA0) := by decide

/-- V91 (R115). -/
theorem test_tay :
    after { at0200 [0xA8] with a := 0x00, y := 0x33 } (fun t => (t.y, t.sr)) =
      some (0x00, 0x22) := by decide

/-- V92 (R116). -/
theorem test_txa :
    after { at0200 [0x8A] with a := 0x80, x := 0x10 } (fun t => t.a) =
      some 0x10 := by decide

/-- V93 (R117). -/
theorem test_tya :
    after { at0200 [0x98] with y := 0x80 } (fun t => (t.a, t.sr)) =
      some (0x80, 0xA0) := by decide

/-- V94 (R118). -/
theorem test_tsx :
    after (at0200 [0xBA]) (fun t => (t.x, t.sr)) =
      some (0xFD, 0xA0) := by decide

/-- V97 (R119). -/
theorem test_txs :
    after { at0200 [0x9A] with x := 0x00, sr := 0xA0 } (fun t => (t.sp, t.sr)) =
      some (0x00, 0xA0) := by decide

/-- V99 (R120). -/
theorem test_pha :
    after { at0200 [0x48] with a := 0x37, sp := 0x00 } (fun t => (t.sp, byteAt 0x0100 t, t.sr)) =
      some (0xFF, 0x37, 0x20) := by decide

/-- V100 (R121). -/
theorem test_php :
    after { at0200 [0x08] with sr := 0x21 } (fun t => (t.sp, byteAt 0x01FD t, t.sr)) =
      some (0xFC, 0x31, 0x21) := by decide

/-- V104 (R122). -/
theorem test_pla :
    after { withByte 0x0100 0x01 (at0200 [0x68]) with sp := 0xFF } (fun t => (t.a, t.sp)) =
      some (0x01, 0x00) := by decide

/-- V103 (R122). -/
theorem test_pla_second :
    after { withByte 0x01FD 0x00 (at0200 [0x68]) with a := 0x55, sp := 0xFC } (fun t => (t.a, t.sp, t.sr)) =
      some (0x00, 0xFD, 0x22) := by decide

/-- V106 (R123). -/
theorem test_plp :
    after { withByte 0x01FD 0xFF (at0200 [0x28]) with sp := 0xFC } (fun t => (t.sp, t.sr)) =
      some (0xFD, 0xEF) := by decide

/-- V107 (R123). -/
theorem test_plp_second :
    after { withByte 0x01FD 0x00 (at0200 [0x28]) with sp := 0xFC, sr := 0xFF } (fun t => (t.sp, t.sr)) =
      some (0xFD, 0x20) := by decide

/-- V108 (R125). -/
theorem test_bpl :
    after (at0200 [0x10, 0x02]) (fun t => (t.pc, t.cycles)) =
      some (0x0204, 3) := by decide

/-- V109 (R125). -/
theorem test_bpl_second :
    after { at0200 [0x10, 0x02] with sr := 0xA0 } (fun t => (t.pc, t.cycles)) =
      some (0x0202, 2) := by decide

/-- V111 (R126). -/
theorem test_bmi :
    after { at0200 [0x30, 0xFC] with sr := 0xA0 } (fun t => (t.pc, t.cycles)) =
      some (0x01FE, 4) := by decide

/-- V110 (R126). -/
theorem test_bmi_second :
    after (at0200 [0x30, 0x02]) (fun t => (t.pc, t.cycles)) =
      some (0x0202, 2) := by decide

/-- V112 (R127). -/
theorem test_bvc :
    after (at0200 [0x50, 0xFE]) (fun t => (t.pc, t.cycles)) =
      some (0x0200, 3) := by decide

/-- V114 (R128). -/
theorem test_bvs :
    after { at_ 0x0280 [0x70, 0x7F] with sr := 0x60 } (fun t => (t.pc, t.cycles)) =
      some (0x0301, 4) := by decide

/-- V113 (R128). -/
theorem test_bvs_second :
    after { at0200 [0x70, 0x80] with sr := 0x60 } (fun t => (t.pc, t.cycles)) =
      some (0x0182, 4) := by decide

/-- V115 (R129). -/
theorem test_bcc :
    after (at0200 [0x90, 0x7F]) (fun t => (t.pc, t.cycles)) =
      some (0x0281, 3) := by decide

/-- V116 (R129). -/
theorem test_bcc_second :
    after { at0200 [0x90, 0x7F] with sr := 0x21 } (fun t => (t.pc, t.cycles)) =
      some (0x0202, 2) := by decide

/-- V117 (R130). -/
theorem test_bcs :
    after { at_ 0xFFF0 [0xB0, 0x10] with sr := 0x21 } (fun t => (t.pc, t.cycles)) =
      some (0x0002, 4) := by decide

/-- V118 (R131). -/
theorem test_bne :
    after (at_ 0x0205 [0xD0, 0xF9]) (fun t => (t.pc, t.cycles)) =
      some (0x0200, 3) := by decide

/-- V119 (R131). -/
theorem test_bne_second :
    after { at_ 0x0205 [0xD0, 0xF9] with sr := 0x22 } (fun t => (t.pc, t.cycles)) =
      some (0x0207, 2) := by decide

/-- V121 (R132). -/
theorem test_beq :
    after { at_ 0x0201 [0xF0, 0xFD] with sr := 0x22 } (fun t => (t.pc, t.cycles)) =
      some (0x0200, 3) := by decide

/-- V120 (R132). -/
theorem test_beq_second :
    after { at0200 [0xF0, 0x00] with sr := 0x22 } (fun t => (t.pc, t.cycles)) =
      some (0x0202, 3) := by decide

/-- V123 (R133). -/
theorem test_jmp :
    after (at0200 [0x4C, 0x34, 0x12]) (fun t => t.pc) =
      some 0x1234 := by decide

/-- V124 (R133). -/
theorem test_jmp_second :
    after (withByte 0x1300 0x78 (withByte 0x12FF 0x34 (withByte 0x1200 0x56 (at0200 [0x6C, 0xFF, 0x12])))) (fun t => t.pc) =
      some 0x5634 := by decide

/-- V126 (R134). -/
theorem test_jsr :
    after { at0200 [0x20, 0x00, 0x03] with sp := 0x00 } (fun t => (t.sp, t.pc, byteAt 0x0100 t, byteAt 0x01FF t)) =
      some (0xFE, 0x0300, 0x02, 0x02) := by decide

/-- V128 (R135). -/
theorem test_rts :
    after { withByte 0x01FD 0xFF (withByte 0x01FC 0xFF (at0200 [0x60])) with sp := 0xFB } (fun t => (t.sp, t.pc)) =
      some (0xFD, 0x0000) := by decide

/-- V129 (R136). -/
theorem test_brk :
    after (withByte 0xFFFF 0x80 (withByte 0xFFFE 0x00 (at0200 [0x00]))) (fun t => (t.sp, t.sr, t.pc, byteAt 0x01FB t, byteAt 0x01FC t, byteAt 0x01FD t)) =
      some (0xFA, 0x24, 0x8000, 0x30, 0x02, 0x02) := by decide

/-- V130 (R136). -/
theorem test_brk_second :
    after { withByte 0xFFFF 0x12 (withByte 0xFFFE 0x34 (at0200 [0x00])) with sp := 0x01, sr := 0xE7 } (fun t => (t.sp, t.pc, byteAt 0x0100 t, byteAt 0x0101 t, byteAt 0x01FF t)) =
      some (0xFE, 0x1234, 0x02, 0x02, 0xF7) := by decide

/-- V131 (R137). -/
theorem test_rti :
    after { withByte 0x01FD 0x02 (withByte 0x01FC 0x02 (withByte 0x01FB 0x31 (at0200 [0x40]))) with sp := 0xFA } (fun t => (t.sp, t.sr, t.pc)) =
      some (0xFD, 0x21, 0x0202) := by decide

/-- V132 (R137). -/
theorem test_rti_second :
    after { withByte 0x01FD 0x90 (withByte 0x01FC 0x00 (withByte 0x01FB 0xFF (at0200 [0x40]))) with sp := 0xFA } (fun t => (t.sp, t.sr, t.pc)) =
      some (0xFD, 0xEF, 0x9000) := by decide

/-- V133 (R138). -/
theorem test_clc :
    after { at0200 [0x18] with sr := 0x21 } (fun t => t.sr) =
      some 0x20 := by decide

/-- V134 (R139). -/
theorem test_sec :
    after (at0200 [0x38]) (fun t => t.sr) =
      some 0x21 := by decide

/-- V135 (R140). -/
theorem test_cli :
    after { at0200 [0x58] with sr := 0x24 } (fun t => t.sr) =
      some 0x20 := by decide

/-- V136 (R141). -/
theorem test_sei :
    after (at0200 [0x78]) (fun t => t.sr) =
      some 0x24 := by decide

/-- V137 (R142). -/
theorem test_clv :
    after { at0200 [0xB8] with sr := 0x60 } (fun t => t.sr) =
      some 0x20 := by decide

/-- V138 (R143). -/
theorem test_cld :
    after { at0200 [0xD8] with sr := 0x28 } (fun t => t.sr) =
      some 0x20 := by decide

/-- V139 (R144). -/
theorem test_sed :
    after (at0200 [0xF8]) (fun t => t.sr) =
      some 0x28 := by decide

/-- V140 (R145). -/
theorem test_nop :
    after { at0200 [0xEA] with a := 0x12, sr := 0xE3 } (fun t => (t.pc, t.sr)) =
      some (0x0201, 0xE3) := by decide

/-- V141 (R145). -/
theorem test_nop_second :
    after { at0200 [0xEA] with sr := 0x00 } (fun t => (t.sr, t.pc)) =
      some (0x20, 0x0201) := by decide

/-- V142 (R146). -/
theorem test_xxx :
    after (at0200 [0x02]) (fun t => (t.pc, t.a)) =
      some (0x0201, 0x00) := by decide

/-- V143 (R146). -/
theorem test_xxx_second :
    after { at0200 [0xFF, 0x00, 0x00] with a := 0x12 } (fun t => (t.pc, t.a)) =
      some (0x0201, 0x12) := by decide

/-! ### Bus order (95_test_vectors.md section 3) and the tick engine (section 4) -/

/-- STA reads no byte at its target; INC writes once; both in the order of R50. -/
theorem test_bus_order_stores :
    tickAccesses { at0200 [0x8D, 0x00, 0x03] with a := 0x01 } =
      [.read 0x0200 0x8D, .read 0x0201 0x00, .read 0x0202 0x03, .write 0x0300 0x01] ∧
    tickAccesses (withByte 0x0300 0x7F (at0200 [0xEE, 0x00, 0x03])) =
      [.read 0x0200 0xEE, .read 0x0201 0x00, .read 0x0202 0x03, .read 0x0300 0x7F, .write 0x0300 0x80] := by decide

/-- Pointer bytes: LDA (zp),Y and JMP (ind). -/
theorem test_bus_order_pointers :
    readAddrs (tickAccesses { withByte 0x20 0xF8 (withByte 0x21 0x30 (at0200 [0xB1, 0x20])) with y := 0x10 }) =
      [0x0200, 0x0201, 0x0020, 0x0021, 0x3108] ∧
    readAddrs (tickAccesses (at0200 [0x6C, 0xFF, 0x12])) = [0x0200, 0x0201, 0x0202, 0x12FF, 0x1200] := by decide

/-- BRK pushes three bytes and then reads its vector; RTI pulls three. -/
theorem test_bus_order_trap :
    tickAccesses (withByte 0xFFFF 0x80 (at0200 [0x00])) =
      [.read 0x0200 0x00, .write 0x01FD 0x02, .write 0x01FC 0x02, .write 0x01FB 0x30, .read 0xFFFE 0x00,
       .read 0xFFFF 0x80] ∧
    readAddrs (tickAccesses { at0200 [0x40] with sp := 0xFA }) = [0x0200, 0x01FB, 0x01FC, 0x01FD] := by decide

/-- Section 4.1, ticks 9 and 10: the dispatch leaves one tick, which only counts down. -/
theorem test_tick_trace :
    step (at0200 [0xA9, 0x05]) = .next { at0200 [0xA9, 0x05] with
      a := 0x05, pc := 0x0202, addressAbs := 0x0201, fetched := 0x05, opcode := 0xA9, cycles := 1 } ∧
    step { at0200 [0xEA] with cycles := 1 } = .next (at0200 [0xEA]) := ⟨rfl, rfl⟩

/-- T2: reset while Busy discards the instruction's registers and keeps memory (R162). -/
theorem test_reset_while_busy :
    let s : State := { withByte 0xFFFD 0x02 (at0200 [0xA9, 0x05]) with a := 0x05, pc := 0x0202, cycles := 1 }
    let t := hostReset .ofConfig s
    (t.a, t.sr, t.sp, t.pc, t.cycles) = (0x00, 0x00, 0xFD, 0x0200, 8) ∧ t.mem = s.mem := by decide

/-- S5: the reset vector is little-endian (R160). -/
theorem test_reset_vector :
    (hostReset .ofConfig (withByte 0xFFFC 0x34 (withByte 0xFFFD 0x12 (at0200 [])))).pc = 0x1234 := by decide

/-- R171: loading writes the bytes and the low byte of the reset vector; a byte beyond the space is dropped (R37). -/
theorem test_loadProgram :
    let s := loadProgram 0xFFFF [0x11, 0x22] (at0200 [])
    hostRead 0xFFFF s = 0x11 ∧ hostRead 0x10000 s = 0x00 ∧ hostRead 0x0000 s = 0x00 ∧ hostRead 0xFFFC s = 0xFF := by decide

/-- R158: the dump of the end state of scenario S1, in the words of 95_test_vectors.md section 1.1 (the layout is log 12). -/
theorem test_registerDump :
    (debugPort { at_ 0x0202 [] with a := 0x05 }).dumpChars = "A=05 X=00 Y=00 SP=FD SR=20 PC=0202".toList := by decide

/-- Log 14: where the program covers 0xFFFC, the base's low byte replaces the program's byte there. -/
theorem test_loadProgram_over_vector :
    hostRead 0xFFFC (loadProgram 0xFFFB [0x11, 0x22, 0x33] (at0200 [])) = 0xFB ∧
    hostRead 0xFFFD (loadProgram 0xFFFB [0x11, 0x22, 0x33] (at0200 [])) = 0x33 := by decide

/-- `withFetchWord` places an instruction where the next tick dispatches it (log 7). -/
theorem test_withFetchWord :
    fetchInstr (State.reset.withFetchWord 24 0x12346C) = .jmp (.ind 0x1234) ∧
    (State.reset.withFetchWord 24 0x12346C).cycles = 0 ∧
    fetchInstr ({ State.reset with pc := 0xFFFF }.withFetchWord 16 0x05A9) = .lda (.imm 0x05) := by decide

/-! ### Witnesses: states and operands that meet the hypotheses of each obligation

An obligation with no hypothesis needs none. -/

/-- `exec` answers a next state here; the obligations whose only hypothesis this is: OnlyListedFlagsChange,
DispatchWritesAreItsAccessList, DispatchCyclesInRange (with a documented and an illegal byte). -/
theorem test_witness_exec_next :
    (∃ t, exec (.lda (.imm 5)) (at0200 [0xA9, 0x05]) = .next t) ∧
    (∃ t, exec (.xxx 0x02) (at0200 [0x02]) = .next t) ∧ (∃ t, exec .brk (at0200 [0x00]) = .next t) :=
  ⟨⟨_, rfl⟩, ⟨_, rfl⟩, ⟨_, rfl⟩⟩

/-- DecodeOfEncodeIsTheInstruction, EveryInstructionCompletes: a well-formed and an ill-formed term. -/
theorem test_witness_wellFormed :
    (Instr.sta (.izy 0xFF)).WellFormed ∧ (Instr.bne 0x80).WellFormed ∧ (Instr.xxx 0xFF).WellFormed ∧
    ¬ (Instr.sta (.imm 0)).WellFormed := by decide

/-- DecodedBytesAreTheEncoding: bytes that decode, with some left. -/
theorem test_witness_decodes : decode [0x6C, 0x34, 0x12, 0x99] = .ok (.jmp (.ind 0x1234), [0x99]) := by decide

/-- EveryOpcodeByteDecodes: both kinds of byte. -/
theorem test_witness_opcode_kinds : (0x02 : Byte) ∈ illegalOpcodes ∧ (0xEA : Byte) ∉ illegalOpcodes := by decide

/-- TickRunsTheDecodedInstruction: an Idle state whose bytes decode and whose dispatch answers, and a Busy one.
InstructionTakesItsCycles: the same Idle state. -/
theorem test_witness_tick :
    (at0200 [0xA9, 0x05]).cycles = 0 ∧
    (let s := at0200 [0xA9, 0x05]
     decode [s.read s.pc, s.read (s.pc + 1), s.read (s.pc + 2)] = .ok (.lda (.imm 0x05), [0x00])) ∧
    (∃ t, exec (.lda (.imm 0x05)) (at0200 [0xA9, 0x05]) = .next t) ∧ State.reset.cycles ≠ 0 :=
  ⟨rfl, by decide, ⟨_, rfl⟩, by decide⟩

/-- PageCrossingCostsOneCycle: no branch, with a crossing (V6), without one (V7), and a store that crosses (V8). -/
theorem test_witness_page_crossing :
    after { at0200 [0xBD, 0xF0, 0x12] with x := 0x20 } (·.cycles) = some 5 ∧
    after { at0200 [0xBD, 0x00, 0x12] with x := 0x20 } (·.cycles) = some 4 ∧
    after { at0200 [0x9D, 0xF0, 0x12] with x := 0x20 } (·.cycles) = some 5 ∧
    (Instr.lda (.abx 0x12F0)).operand.mode ≠ .rel := by decide

/-- StepKeepsInvariant, HostActionsKeepInvariant: the state after reset has the invariant and steps. -/
theorem test_witness_invariant : State.reset.Inv ∧ ∃ t, step State.reset = .next t :=
  ⟨⟨by decide, by decide, by decide⟩, ⟨_, rfl⟩⟩

/-- UnusedFlagForcedByDispatch: a dispatch, U set in an Idle and a Busy state, a Busy state with U clear. -/
theorem test_witness_unused_flag :
    (∃ t, exec .plp (at0200 [0x28]) = .next t) ∧ (at0200 [0x28]).flag .u = true ∧
    (∃ t, step (at0200 [0x28]) = .next t) ∧ State.reset.flag .u = false ∧ State.reset.cycles ≠ 0 ∧
    (∃ t, step State.reset = .next t) :=
  ⟨⟨_, rfl⟩, by decide, ⟨_, rfl⟩, by decide, by decide, ⟨_, rfl⟩⟩

/-- OnlyListedRegistersChange: for each register an instruction outside its list; a shift's memory form for A. -/
theorem test_witness_registers :
    writesA (.asl (.zp0 0x10)) = false ∧ writesA (.asl .imp) = true ∧ writesX Mnemonic.lda = false ∧
    writesY Mnemonic.lda = false ∧ writesSp Mnemonic.lda = false ∧
    (∃ t, exec (.asl (.zp0 0x10)) (at0200 [0x06, 0x10]) = .next t) :=
  ⟨by decide, by decide, by decide, by decide, by decide, ⟨_, rfl⟩⟩

/-- PcMovesPastTheInstruction: no control transfer, with PC at the end of the space. -/
theorem test_witness_pc_moves :
    (∃ t, exec (.lda (.abs 0x1234)) (at_ 0xFFFE [0xAD, 0x34]) = .next t) ∧ transfersControl Mnemonic.lda = false :=
  ⟨⟨_, rfl⟩, rfl⟩

/-- FormsThatStoreNothingKeepMemory: a shift of A, a load, a pull. -/
theorem test_witness_stores_nothing :
    (∃ t, exec (.asl .imp) (at0200 [0x0A]) = .next t) ∧ storesToMemory (.asl .imp) = false ∧
    storesToMemory (.asl (.zp0 0)) = true ∧ storesToMemory (.lda (.abs 0)) = false ∧ storesToMemory .rti = false :=
  ⟨⟨_, rfl⟩, by decide, by decide, by decide, by decide⟩

/-- ScratchFieldsAreNotRead: two states that differ in every scratch field, the latch and `cycles`. -/
theorem test_witness_scratch :
    SameArchitecture (at0200 [0x0A])
      { at0200 [0x0A] with addressAbs := 1, addressRel := 2, fetched := 3, opcode := 4, cycles := 5 } ∧
    ∃ t, exec (.asl .imp) (at0200 [0x0A]) = .next t :=
  ⟨⟨by decide, by decide⟩, ⟨_, rfl⟩⟩

/-- DecimalAndInterruptFlagsAreInert: ADC with D, and CLC with I. -/
theorem test_witness_inert :
    Flag.d ∈ [Flag.d, .i] ∧ Flag.i ∈ [Flag.d, .i] ∧ Flag.d ∉ flagsWritten (Instr.adc (.imm 1)).mnemonic ∧
    Flag.i ∉ flagsWritten Instr.clc.mnemonic ∧ (Instr.adc (.imm 1)).mnemonic ∉ [Mnemonic.php, .brk] ∧
    ∃ t, exec (.adc (.imm 1)) (at0200 [0x69, 0x01]) = .next t :=
  ⟨by decide, by decide, by decide, by decide, by decide, ⟨_, rfl⟩⟩

/-- BusReadsTheLastWrite at the last address of the space and the first one outside it (R36, R37). -/
theorem test_witness_bus :
    65535 < 65536 ∧ 65536 ≤ 65536 ∧ (Memory.write [] 65535 7).read 65535 = 7 ∧ Memory.write [] 65536 7 = [] := by decide

/-- CanonicalMemoryIsUnique: a canonical memory at both ends of the space, and lists that are not canonical. -/
theorem test_witness_canonical :
    Memory.wf [(0, 1), (65535, 2)] = true ∧ Memory.wf [(5, 1), (5, 2)] = false ∧ Memory.wf [(5, 0)] = false ∧
    Memory.wf [(65536, 1)] = false := by decide

/-- DispatchDependsOnlyOnBytesItReads: another memory that agrees on the bytes read and differs elsewhere. -/
theorem test_witness_noninterference :
    (∃ t, exec (.lda (.imm 0x05)) (at0200 [0xA9, 0x05]) = .next t) ∧
    Memory.write (at0200 [0xA9, 0x05]).mem 0x0300 0x77 ≠ (at0200 [0xA9, 0x05]).mem ∧
    (readAddrs (dispatchAccesses (.lda (.imm 0x05)) (at0200 [0xA9, 0x05]))).all (fun a =>
      (Memory.write (at0200 [0xA9, 0x05]).mem 0x0300 0x77).read a.toNat == (at0200 [0xA9, 0x05]).mem.read a.toNat) = true :=
  ⟨⟨_, rfl⟩, by decide, by decide⟩

/-- TickReadsReturnMemory: a read in a tick's list. -/
theorem test_witness_tick_reads : BusAccess.read 0x0201 0x05 ∈ tickAccesses (at0200 [0xA9, 0x05]) := by decide

/-- ImmediateAndRelativeOperands: an IMMEDIATE instruction at PC. -/
theorem test_witness_immediate : (fetchInstr (at0200 [0xA9, 0x05])).operand = .imm 0x05 := by decide

/-- The well-formed forms of AdcAddsWithCarry, SbcAddsTheComplement, LogicOperatesBitwiseOnA,
ComparesSetCarryZeroNegative, BitTestsMemoryBits, at the first and the last mode that each mnemonic has. -/
theorem test_witness_alu_forms :
    (Instr.adc (.imm 0xFF)).WellFormed ∧ (Instr.adc (.izy 0xFF)).WellFormed ∧ (Instr.sbc (.imm 0)).WellFormed ∧
    (Instr.sbc (.izx 0)).WellFormed ∧ (Instr.and (.imm 0)).WellFormed ∧ (Instr.ora (.abx 0xFFFF)).WellFormed ∧
    (Instr.eor (.izy 0)).WellFormed ∧ (Instr.cmp (.aby 0)).WellFormed ∧ (Instr.cpx (.imm 0)).WellFormed ∧
    (Instr.cpy (.abs 0)).WellFormed ∧ (Instr.bit (.zp0 0)).WellFormed ∧ (Instr.bit (.abs 0xFFFF)).WellFormed := by decide

/-- The well-formed forms of ShiftsMoveOneBit, RotatesMoveOneBitThroughCarry, IncAndDecCountMemory, in the A form and a
memory form. -/
theorem test_witness_shift_forms :
    (Instr.asl .imp).WellFormed ∧ (Instr.asl (.abx 0xFFFF)).WellFormed ∧ (Instr.lsr .imp).WellFormed ∧
    (Instr.lsr (.zp0 0)).WellFormed ∧ (Instr.rol .imp).WellFormed ∧ (Instr.rol (.zpx 0)).WellFormed ∧
    (Instr.ror .imp).WellFormed ∧ (Instr.ror (.abs 0)).WellFormed ∧ (Instr.inc (.zp0 0xFF)).WellFormed ∧
    (Instr.dec (.abx 0)).WellFormed := by decide

/-- The well-formed forms of LoadsTakeTheOperand, StoresWriteOneByte. -/
theorem test_witness_load_store_forms :
    (Instr.lda (.imm 0)).WellFormed ∧ (Instr.lda (.izy 0xFF)).WellFormed ∧ (Instr.ldx (.zpy 0xFF)).WellFormed ∧
    (Instr.ldy (.abx 0)).WellFormed ∧ (Instr.sta (.izx 0)).WellFormed ∧ (Instr.stx (.zpy 0)).WellFormed ∧
    (Instr.sty (.zpx 0)).WellFormed := by decide

/-- OverflowAndBorrowAreArithmetic: ADC and SBC that answer (V22 and V32 overflow). -/
theorem test_witness_overflow :
    after { at0200 [0x69, 0x01] with a := 0x7F, sr := 0x21 } (fun t => t.flag .v) = some true ∧
    after { at0200 [0xE9, 0x01] with a := 0x80, sr := 0x21 } (fun t => t.flag .v) = some true := by decide

/-- SbcUndoesAdc: the carry is clear at the start. -/
theorem test_witness_carry_clear : (at0200 [0x69, 0xFF]).flag .c = false := by decide

/-- NopAndIllegalOpcodesDoNothing: both kinds of instruction. -/
theorem test_witness_nops :
    (Instr.nop = .nop ∨ ∃ op ∈ illegalOpcodes, Instr.nop = .xxx op) ∧
    (Instr.xxx 0xFF = .nop ∨ ∃ op ∈ illegalOpcodes, Instr.xxx 0xFF = .xxx op) :=
  ⟨.inl rfl, .inr ⟨0xFF, by decide, rfl⟩⟩

/-- ResetLeavesTheStatedState: a state whose memory lists nothing. FirstDispatchFollowsTheLatency: the first and the last
tick of each latency. -/
theorem test_witness_reset :
    (at0200 []).mem = [] ∧ 0 ≤ ResetLatency.seven.ticks ∧ 7 ≤ ResetLatency.seven.ticks ∧
    8 ≤ ResetLatency.eight.ticks := by decide

/-- DumpShowsExactlyTheRegisters, both ways: states that differ in what the dump hides only, and in PC's high byte only. -/
theorem test_witness_dump :
    (debugPort (at0200 [])).dumpChars =
      (debugPort { at0200 [0xEA] with addressAbs := 1, addressRel := 2, fetched := 3, opcode := 4, cycles := 5 }).dumpChars ∧
    (debugPort (at0200 [])).dumpChars ≠ (debugPort (at_ 0x0300 [])).dumpChars := by decide

end Sys2Proof.Tests
end

/-! ### One tick -/

namespace Sys2Proof.Machine

/-- A tick is the closing decrement: of the state itself in Busy, of the dispatch's state in Idle (R165). -/
theorem step_next_cases {s t : State} (h : step s = .next t) :
    (s.cycles ≠ 0 ∧ t = countDown s) ∨
      (s.cycles = 0 ∧ ∃ u, exec (fetchInstr s) s = .next u ∧ t = countDown u) := by
  unfold step at h
  split at h
  · next idle =>
    cases e : exec (fetchInstr s) s with
    | next u => rw [e] at h; cases h; exact .inr ⟨idle, u, rfl, rfl⟩
    | fault r => cases r
    | refused r => rw [e] at h; cases h
  · next busy => cases h; exact .inl ⟨busy, rfl⟩

/-! ### Cycle counts (R167 to R169) -/

/-- The base counts of R169 lie between 2 and 7. -/
theorem documentedCycles_range (n : Mnemonic) (m : Mode) :
    2 ≤ documentedCycles n m ∧ documentedCycles n m ≤ 7 := by
  unfold documentedCycles
  repeat' split
  all_goals decide

/-- No instruction of the penalty class writes memory. -/
theorem not_store_of_takesPenalty {n : Mnemonic} (h : takesPenalty n = true) : isRmw n = false ∧ n ≠ .sta := by
  cases n <;> simp [takesPenalty, isRmw] at *

/-- The penalty only ever comes on top of a base count of at most 5. -/
theorem documentedCycles_le_five_of_penalty {n : Mnemonic} {m : Mode} (hn : takesPenalty n = true)
    (hm : isIndexedMode m = true) : documentedCycles n m ≤ 5 := by
  obtain ⟨rmw, sta⟩ := not_store_of_takesPenalty hn
  cases m with
  | abx | aby | izy => simp [documentedCycles, rmw, sta]
  | _ => cases hm

/-- The penalty of R168 does not lift a documented count above 7. -/
theorem documentedCycles_add_penalty_le (n : Mnemonic) (m : Mode) (c : Bool) :
    documentedCycles n m + penalty n m c ≤ 7 := by
  unfold penalty
  split
  · next h =>
    simp only [Bool.and_eq_true] at h
    obtain ⟨⟨member, indexed⟩, -⟩ := h
    have := documentedCycles_le_five_of_penalty member indexed
    omega
  · exact (documentedCycles_range n m).2

/-- `bcyc` is 0, 1 or 2 (R124). -/
theorem branchCycles_le_two (c : Bool) (s : State) : branchCycles c s ≤ 2 := by
  unfold branchCycles
  repeat' split
  all_goals decide

/-- Only a term in REL mode can have a condition that holds. -/
theorem condOf_of_mode_ne_rel {i : Instr} (h : i.operand.mode ≠ .rel) (s : State) : condOf i s = false := by
  cases i with
  | bpl r | bmi r | bvc r | bvs r | bcc r | bcs r | bne r | beq r => exact absurd rfl h
  | _ => rfl

theorem baseCycles_of_documented {i : Instr} (h : i.mnemonic ≠ .xxx) :
    baseCycles i = documentedCycles i.mnemonic i.operand.mode := by
  cases i with
  | xxx op => exact absurd rfl h
  | _ => rfl

/-- An illegal opcode takes its free count and nothing more (R169). -/
theorem cyclesOf_xxx (b op : Byte) (s : State) : cyclesOf (.xxx b) op s = (Config.illegalCycles b).val + 1 := rfl

/-- A documented instruction takes at least 2 cycles and at most 7 (R167, R168, R169). -/
theorem cyclesOf_documented {i : Instr} (h : i.mnemonic ≠ .xxx) (op : Byte) (s : State) :
    2 ≤ cyclesOf i op s ∧ cyclesOf i op s ≤ 7 := by
  have base := documentedCycles_range i.mnemonic i.operand.mode
  rw [cyclesOf, baseCycles_of_documented h]
  refine ⟨by omega, ?_⟩
  by_cases rel : i.operand.mode = .rel
  · have taken := branchCycles_le_two (condOf i (ruleState op i.operand s)) (ruleState op i.operand s)
    have base2 : documentedCycles i.mnemonic i.operand.mode = 2 := by rw [rel]; rfl
    have noPenalty : penalty i.mnemonic i.operand.mode (crossed i.operand (prologue op s)) = 0 := by
      simp [penalty, isIndexedMode, rel]
    omega
  · have noBranch := condOf_of_mode_ne_rel rel (ruleState op i.operand s)
    simpa [noBranch, branchCycles] using documentedCycles_add_penalty_le i.mnemonic i.operand.mode _

/-- The count that any dispatch sets (R32). -/
theorem cyclesOf_range (i : Instr) (op : Byte) (s : State) : 1 ≤ cyclesOf i op s ∧ cyclesOf i op s ≤ 8 := by
  by_cases h : i.mnemonic = .xxx
  · cases i with
    | xxx b => rw [cyclesOf_xxx]; omega
    | _ => cases h
  · have := cyclesOf_documented h op s
    omega

/-! ### What a rule leaves alone (R15 to R20, R29, R30) -/

section FlagFrames

variable {f : Flag} (hn : f ≠ .n) (hz : f ≠ .z)
include hn hz

@[simp] theorem getFlag_setZN_kept (v sr : Byte) : getFlag f (setZN v sr) = getFlag f sr := by
  rw [setZN, getFlag_setFlag_ne hn.symm, getFlag_setFlag_ne hz.symm]

@[simp] theorem getFlag_shiftFlags_kept (hc : f ≠ .c) (out : Bool) (r sr : Byte) :
    getFlag f (shiftFlags out r sr) = getFlag f sr := by
  rw [shiftFlags, getFlag_setZN_kept hn hz, getFlag_setFlag_ne hc.symm]

@[simp] theorem getFlag_compareFlags_kept (hc : f ≠ .c) (r m sr : Byte) :
    getFlag f (compareFlags r m sr) = getFlag f sr := by
  rw [compareFlags, getFlag_setFlag_ne hn.symm, getFlag_setFlag_ne hz.symm, getFlag_setFlag_ne hc.symm]

@[simp] theorem getFlag_bitFlags_kept (hv : f ≠ .v) (a m sr : Byte) :
    getFlag f (bitFlags a m sr) = getFlag f sr := by
  rw [bitFlags, getFlag_setFlag_ne hv.symm, getFlag_setFlag_ne hn.symm, getFlag_setFlag_ne hz.symm]

@[simp] theorem getFlag_adcFlags_kept (hc : f ≠ .c) (hv : f ≠ .v) (a m sr : Byte) :
    getFlag f (adcFlags a m sr) = getFlag f sr := by
  rw [adcFlags, getFlag_setFlag_ne hn.symm, getFlag_setFlag_ne hv.symm, getFlag_setFlag_ne hz.symm,
    getFlag_setFlag_ne hc.symm]

end FlagFrames

/-- A rule leaves every flag outside its row of R30, U apart, which PLP and RTI pull. -/
theorem ruleOf_flag_kept {i : Instr} {f : Flag} (hu : f ≠ .u) (hf : f ∉ flagsWritten i.mnemonic) (s : State) :
    (ruleOf i s).flag f = s.flag f := by
  simp only [state_flag_eq]
  cases i with
  | plp | rti => cases f <;> simp [Instr.mnemonic, flagsWritten] at hf hu
  | clc | sec | cli | sei | clv | cld | sed | brk =>
    simp only [Instr.mnemonic, flagsWritten, List.mem_singleton] at hf
    simp [ruleOf, Ne.symm hf]
  | _ =>
    simp only [Instr.mnemonic, flagsWritten, List.mem_cons, List.not_mem_nil, or_false, not_or,
      not_false_eq_true] at hf
    simp [ruleOf, ruleAdc, ruleSbc, ruleAsl, ruleLsr, ruleRol, ruleRor, hf]

/-- A dispatch leaves what its rule leaves: the epilogue forces U only. -/
theorem epilogue_flag_kept {f : Flag} (hu : f ≠ .u) (n : Nat) (s : State) : (epilogue n s).flag f = s.flag f :=
  getFlag_setFlag_ne hu.symm true s.sr

/-- The prologue and the addressing mode leave every flag but U. -/
theorem ruleState_flag_kept {f : Flag} (hu : f ≠ .u) (op : Byte) (m : Operand) (s : State) :
    (ruleState op m s).flag f = s.flag f := by
  rw [state_flag_eq, ruleState_sr, getFlag_setFlag_ne hu.symm, state_flag_eq]

/-- WriteBack reaches A in the accumulator form only (R85). -/
theorem shiftEnd_a_of_mode_ne_imp {m : Operand} (h : m.mode ≠ .imp) (out : Bool) (r : Byte) (s : State) :
    (shiftEnd m out r s).a = s.a := by
  cases m with
  | imp => exact absurd rfl h
  | _ => rfl

/-- A changes only by the instructions of R15. -/
theorem ruleOf_a_kept {i : Instr} (h : writesA i = false) (s : State) : (ruleOf i s).a = s.a := by
  cases i with
  | asl m | lsr m | rol m | ror m =>
    have memoryForm : m.mode ≠ .imp := by simpa [writesA, Instr.mnemonic, Instr.operand] using h
    simp [ruleOf, ruleAsl, ruleLsr, ruleRol, ruleRor, shiftEnd_a_of_mode_ne_imp memoryForm]
  | adc | sbc | and | ora | eor | lda | txa | tya | pla => cases h
  | _ => simp [ruleOf]

/-- X changes only by the instructions of R16. -/
theorem ruleOf_x_kept {i : Instr} (h : writesX i.mnemonic = false) (s : State) : (ruleOf i s).x = s.x := by
  cases i with
  | ldx | tax | tsx | inx | dex => cases h
  | _ => simp [ruleOf, ruleAdc, ruleSbc, ruleAsl, ruleLsr, ruleRol, ruleRor]

/-- Y changes only by the instructions of R17. -/
theorem ruleOf_y_kept {i : Instr} (h : writesY i.mnemonic = false) (s : State) : (ruleOf i s).y = s.y := by
  cases i with
  | ldy | tay | iny | dey => cases h
  | _ => simp [ruleOf, ruleAdc, ruleSbc, ruleAsl, ruleLsr, ruleRol, ruleRor]

/-- SP changes only by the instructions of R20. -/
theorem ruleOf_sp_kept {i : Instr} (h : writesSp i.mnemonic = false) (s : State) : (ruleOf i s).sp = s.sp := by
  cases i with
  | pha | php | pla | plp | jsr | rts | rti | brk | txs => cases h
  | _ => simp [ruleOf, ruleAdc, ruleSbc, ruleAsl, ruleLsr, ruleRol, ruleRor]

/-- R18: only a control transfer's rule writes PC. -/
theorem ruleOf_pc_kept {i : Instr} (h : transfersControl i.mnemonic = false) (s : State) :
    (ruleOf i s).pc = s.pc := by
  cases i with
  | bpl | bmi | bvc | bvs | bcc | bcs | bne | beq | jmp | jsr | rts | rti | brk => cases h
  | _ => simp [ruleOf, ruleAdc, ruleSbc, ruleAsl, ruleLsr, ruleRol, ruleRor]

/-! ### What every rule keeps: the invariant -/

theorem shiftEnd_mem_wf {s : State} (h : s.mem.wf = true) (m : Operand) (out : Bool) (r : Byte) :
    (shiftEnd m out r s).mem.wf = true := by
  cases m with
  | imp => exact h
  | _ => exact wf_write h _ _

/-- Trap entry writes the three pushed bytes and no other (R150). -/
theorem enterTrap_mem (s : State) : (enterTrap s).mem = (pushWord (s.pc + 1) s).mem.write
    (stackAddr (s.sp - 1 - 1)).toNat (pushedStatus s.sr) := rfl

theorem pushWord_mem_wf {s : State} (h : s.mem.wf = true) (w : Addr) : (pushWord w s).mem.wf = true :=
  wf_write (wf_write h _ _) _ _

/-- A rule changes memory through bus writes only, so the canonical form stays (R36). -/
theorem ruleOf_mem_wf {s : State} (h : s.mem.wf = true) (i : Instr) : (ruleOf i s).mem.wf = true := by
  cases i with
  | asl m | lsr m | rol m | ror m =>
    exact shiftEnd_mem_wf (s := fetch m s) (by simpa using h) m _ _
  | inc | dec | sta | stx | sty | pha | php => simp [ruleOf, wf_write, h]
  | jsr => exact pushWord_mem_wf h _
  | brk => exact wf_write (pushWord_mem_wf h _) _ _
  | _ => simpa [ruleOf, ruleAdc, ruleSbc] using h

/-- The stored B stays clear: no rule writes it but PLP and RTI, which clear it in the pulled byte (D9). -/
theorem ruleOf_breakClear {s : State} (h : s.flag .b = false) (i : Instr) : (ruleOf i s).flag .b = false := by
  by_cases row : .b ∈ flagsWritten i.mnemonic
  · cases i with
    | plp | rti => simp [state_flag_eq, ruleOf, getFlag_pulledStatus]
    | _ => simp [Instr.mnemonic, flagsWritten] at row
  · rw [ruleOf_flag_kept (by decide) row, h]

/-! ### Dispatches and ticks -/

/-- Every dispatch keeps the invariant, from any count (R23, R32, R36). -/
theorem exec_keeps_inv {i : Instr} {s t : State} (h : s.Inv) (e : exec i s = .next t) : t.Inv := by
  obtain ⟨canonical, -, breakClear⟩ := h
  obtain ⟨op, -, rfl⟩ := exec_next_iff.mp e
  refine ⟨?_, (cyclesOf_range i op s).2, ?_⟩
  · exact ruleOf_mem_wf (by simpa using canonical) i
  · rw [epilogue_flag_kept (by decide)]
    exact ruleOf_breakClear (by rwa [ruleState_flag_kept (by decide)]) i

theorem countDown_keeps_inv {s : State} (h : s.Inv) : (countDown s).Inv :=
  ⟨h.memoryCanonical, (Nat.sub_le _ _).trans h.cyclesInRange, h.breakClear⟩

/-- Settles O11: a tick is at most one dispatch and one decrement, and each keeps the invariant. -/
theorem stepKeepsInvariant : Obligations.StepKeepsInvariant := by
  intro s t h e
  obtain ⟨-, rfl⟩ | ⟨-, u, dispatched, rfl⟩ := step_next_cases e
  · exact countDown_keeps_inv h
  · exact countDown_keeps_inv (exec_keeps_inv h dispatched)

/-- Settles O12, field by field: nothing is listed in memory, the latency is at most 8, and SR is 0. -/
theorem resetHasInvariant : Obligations.ResetHasInvariant :=
  ⟨wf_nil, Nat.le_refl 8, by decide⟩

/-- Settles O9, by the range of the count that the epilogue stores. -/
theorem dispatchCyclesInRange : Obligations.DispatchCyclesInRange := by
  intro i s t e
  obtain ⟨op, -, rfl⟩ := exec_next_iff.mp e
  obtain ⟨low, high⟩ := cyclesOf_range i op s
  exact ⟨low, high, fun documented => (cyclesOf_documented documented op s).2⟩

/-- The epilogue forces U whatever the rule wrote (R22). -/
theorem exec_flag_u {i : Instr} {s t : State} (e : exec i s = .next t) : t.flag .u = true := by
  obtain ⟨op, -, rfl⟩ := exec_next_iff.mp e
  exact getFlag_setFlag_same .u true _

/-- Settles O14: the prologue and the epilogue force U, and the decrement of a tick does not touch it. -/
theorem unusedFlagForcedByDispatch : Obligations.UnusedFlagForcedByDispatch := by
  refine ⟨?_, fun i s t => exec_flag_u, ?_, fun p s => (by decide : getFlag .u 0x00 = false), ?_⟩
  · intro op m s
    rw [state_flag_eq, ruleState_sr, getFlag_setFlag_same]
  · intro s t h e
    obtain ⟨-, rfl⟩ | ⟨-, u, dispatched, rfl⟩ := step_next_cases e
    · exact h
    · exact (exec_flag_u dispatched : u.flag .u = true)
  · intro s t busy e
    obtain ⟨-, rfl⟩ | ⟨idle, -⟩ := step_next_cases e
    · rfl
    · exact absurd idle busy

/-- Settles O15, by the frame of the rule between the prologue and the epilogue. -/
theorem onlyListedFlagsChange : Obligations.OnlyListedFlagsChange := by
  intro i s t e f unlisted hu
  obtain ⟨op, -, rfl⟩ := exec_next_iff.mp e
  rw [epilogue_flag_kept hu, ruleOf_flag_kept hu unlisted, ruleState_flag_kept hu]

/-- Settles O16, register by register. -/
theorem onlyListedRegistersChange : Obligations.OnlyListedRegistersChange := by
  intro i s t e
  obtain ⟨op, -, rfl⟩ := exec_next_iff.mp e
  refine ⟨fun h => ?_, fun h => ?_, fun h => ?_, fun h => ?_⟩
  · rw [epilogue_a, ruleOf_a_kept h, ruleState_a]
  · rw [epilogue_x, ruleOf_x_kept h, ruleState_x]
  · rw [epilogue_y, ruleOf_y_kept h, ruleState_y]
  · rw [epilogue_sp, ruleOf_sp_kept h, ruleState_sp]

/-- Settles O17: the prologue steps past the opcode and the addressing mode past the operand bytes. -/
theorem pcMovesPastTheInstruction : Obligations.PcMovesPastTheInstruction := by
  intro i s t e h
  obtain ⟨op, -, rfl⟩ := exec_next_iff.mp e
  rw [epilogue_pc, ruleOf_pc_kept h, ruleState_pc, Instr.length]
  simp only [BitVec.toNat_add, BitVec.toNat_ofNat, BitVec.ofNat_eq_ofNat]
  omega

end Sys2Proof.Machine

/-! ### Two runs that differ in scratch fields only (R31) -/

namespace Sys2Proof.Machine

/-- The architecture field by field. -/
theorem sameArchitecture_iff {s t : State} : SameArchitecture s t ↔
    s.a = t.a ∧ s.x = t.x ∧ s.y = t.y ∧ s.sp = t.sp ∧ s.sr = t.sr ∧ s.pc = t.pc ∧ s.mem = t.mem := by
  simp [SameArchitecture, debugPort, and_assoc]

/-- Two states agree on what a rule in mode `m` reads: the architecture, `addressRel` in REL, the operand that `Fetch`
gives in every other mode, and `addressAbs` in every mode that writes it (R71 to R84). -/
structure SameInputs (m : Operand) (r r' : State) : Prop where
  architecture : SameArchitecture r r'
  displacement : m.mode = .rel → r.addressRel = r'.addressRel
  operand : m.mode ≠ .rel → (fetch m r).fetched = (fetch m r').fetched
  address : m.mode ≠ .rel → m.mode ≠ .imp → r.addressAbs = r'.addressAbs

section TwoRuns

variable {s s' : State} (h : SameArchitecture s s')
include h

theorem readWord_congr (lo hi : Addr) : s.readWord lo hi = s'.readWord lo hi := by
  simp only [State.readWord, read_of_mem_eq h.2]

theorem prologue_congr (op : Byte) : SameArchitecture (prologue op s) (prologue op s') := by
  rw [sameArchitecture_iff] at *
  simp [h]

/-- An effective address is computed from the architecture alone, in the modes that have one. -/
theorem effectiveAddress_congr {m : Operand} (hr : m.mode ≠ .rel) (hi : m.mode ≠ .imp) :
    effectiveAddress m s = effectiveAddress m s' := by
  have word := readWord_congr h
  obtain ⟨-, hx, hy, -, -, hpc, -⟩ := sameArchitecture_iff.mp h
  cases m with
  | imp => exact absurd rfl hi
  | rel r => exact absurd rfl hr
  | _ => simp [effectiveAddress, indirectTarget, zeroPageWord, word, hx, hy, hpc]

theorem operandOf_congr {m : Operand} (hr : m.mode ≠ .rel) : operandOf m s = operandOf m s' := by
  by_cases hi : m.mode = .imp
  · cases m with
    | imp => exact (sameArchitecture_iff.mp h).1
    | _ => cases hi
  · have address := effectiveAddress_congr h hr hi
    cases m with
    | imp => exact absurd rfl hi
    | imm i => rfl
    | _ => simp only [operandOf, address, read_of_mem_eq h.2]

theorem crossed_congr (m : Operand) : crossed m s = crossed m s' := by
  have word := readWord_congr h
  obtain ⟨-, hx, hy, -⟩ := sameArchitecture_iff.mp h
  cases m <;> simp [crossed, effectiveAddress, baseAddress, zeroPageWord, word, hx, hy]

/-- The addressing mode overwrites every scratch field that the rule will read. -/
theorem ruleState_sameInputs (op : Byte) (m : Operand) :
    SameInputs m (ruleState op m s) (ruleState op m s') where
  architecture := by
    rw [sameArchitecture_iff] at *
    simp [h]
  displacement rel := by
    cases m with
    | rel r => rfl
    | _ => cases rel
  operand hr := by rw [fetch_ruleState, fetch_ruleState, operandOf_congr h hr]
  address hr hi := by
    rw [ruleState, ruleState, resolve_addressAbs, resolve_addressAbs,
      effectiveAddress_congr (prologue_congr h op) hr hi]

theorem condOf_congr (i : Instr) : condOf i s = condOf i s' := by
  obtain ⟨-, -, -, -, hsr, -⟩ := sameArchitecture_iff.mp h
  cases i <;> simp [condOf, state_flag_eq, hsr]

end TwoRuns

/-- The mode of a well-formed instruction is one that its rule lists. -/
theorem mode_ne_of_wellFormed {i : Instr} (h : i.WellFormed) {k : Mode} (hk : k ∉ i.mnemonic.modes) :
    i.operand.mode ≠ k := by
  have listed : i.mnemonic.modes.contains i.operand.mode = true := ((Bool.and_eq_true _ _).mp h).1
  rintro rfl
  exact hk (List.contains_iff_mem.mp listed)

theorem shiftEnd_congr {s s' : State} (h : SameArchitecture s s') {m : Operand}
    (address : m.mode ≠ .imp → s.addressAbs = s'.addressAbs) (out : Bool) (v : Byte) :
    SameArchitecture (shiftEnd m out v s) (shiftEnd m out v s') := by
  rw [sameArchitecture_iff] at h
  cases m with
  | imp => simp [sameArchitecture_iff, shiftEnd, writeBack, h]
  | _ => simp [sameArchitecture_iff, shiftEnd, writeBack, h, address (by simp [Operand.mode])]

/-- The rule of an instruction of the table gives the same architecture from the same inputs: a rule that uses
`addressAbs` or `Fetch` stands in no mode that leaves them unset. -/
theorem ruleOf_congr {i : Instr} (wf : i.WellFormed) {r r' : State} (h : SameInputs i.operand r r') :
    SameArchitecture (ruleOf i r) (ruleOf i r') := by
  obtain ⟨architecture, displacement, operand, address⟩ := h
  have read := read_of_mem_eq architecture.2
  have word := readWord_congr architecture
  have fields := sameArchitecture_iff.mp architecture
  cases i with
  | adc m | sbc m | and m | ora m | eor m | cmp m | cpx m | cpy m | bit m | lda m | ldx m | ldy m =>
    have hr : m.mode ≠ .rel := mode_ne_of_wellFormed wf (by simp [Instr.mnemonic, Mnemonic.modes])
    have fetched : (fetch m r).fetched = (fetch m r').fetched := operand hr
    simp [sameArchitecture_iff, ruleOf, ruleAdc, ruleSbc, fetched, fields]
  | asl m | lsr m | rol m | ror m =>
    have hr : m.mode ≠ .rel := mode_ne_of_wellFormed wf (by simp [Instr.mnemonic, Mnemonic.modes])
    have fetched : (fetch m r).fetched = (fetch m r').fetched := operand hr
    have same : SameArchitecture (fetch m r) (fetch m r') := by simp [sameArchitecture_iff, fields]
    have carry : (fetch m r).flag .c = (fetch m r').flag .c := by simp [state_flag_eq, fields]
    simp only [ruleOf, ruleAsl, ruleLsr, ruleRol, ruleRor, fetched, carry]
    refine shiftEnd_congr same (fun hi => ?_) _ _
    simpa using address hr hi
  | inc m | dec m | sta m | stx m | sty m | jmp m =>
    have hr : m.mode ≠ .rel := mode_ne_of_wellFormed wf (by simp [Instr.mnemonic, Mnemonic.modes])
    have hi : m.mode ≠ .imp := mode_ne_of_wellFormed wf (by simp [Instr.mnemonic, Mnemonic.modes])
    have fetched : (fetch m r).fetched = (fetch m r').fetched := operand hr
    have target : r.addressAbs = r'.addressAbs := address hr hi
    simp [sameArchitecture_iff, ruleOf, fetched, target, fields]
  | jsr a =>
    have target : r.addressAbs = r'.addressAbs :=
      address (by simp [Instr.operand, Operand.mode]) (by simp [Instr.operand, Operand.mode])
    simp [sameArchitecture_iff, ruleOf, target, fields]
  | bpl d | bmi d | bvc d | bvs d | bcc d | bcs d | bne d | beq d =>
    have displaced : r.addressRel = r'.addressRel := displacement rfl
    simp [sameArchitecture_iff, ruleOf, condOf_congr architecture, branchTarget, displaced, fields]
  | brk => simp [sameArchitecture_iff, ruleOf, enterTrap_pc, enterTrap_mem, word, fields]
  | rti | rts | pla | plp =>
    simp [sameArchitecture_iff, ruleOf, returnFromTrap_pc, pullWord_fst, pull_fst, read, fields]
  | _ => simp [sameArchitecture_iff, ruleOf, fields]

/-- The count of a dispatch depends on the architecture alone: only a branch reads `addressRel` for it (R124, R167). -/
theorem cyclesOf_congr {s s' : State} (h : SameArchitecture s s') (i : Instr) (op : Byte) :
    cyclesOf i op s = cyclesOf i op s' := by
  have inputs := ruleState_sameInputs h op i.operand
  have cond := condOf_congr inputs.architecture i
  rw [cyclesOf, cyclesOf, crossed_prologue, crossed_prologue, crossed_congr h, cond]
  by_cases rel : i.operand.mode = .rel
  · have displaced := inputs.displacement rel
    obtain ⟨-, -, -, -, -, pc, -⟩ := sameArchitecture_iff.mp inputs.architecture
    rw [branchCycles, branchCycles, branchTarget, branchTarget, displaced, pc]
  · simp only [condOf_of_mode_ne_rel rel, branchCycles, Bool.false_eq_true, if_false]

theorem epilogue_congr {s s' : State} (h : SameArchitecture s s') (n : Nat) :
    SameArchitecture (epilogue n s) (epilogue n s') := by
  rw [sameArchitecture_iff] at *
  simp [h]

/-- Settles O19: the addressing mode leaves both runs with the same inputs, and the rule and the count read no more. -/
theorem scratchFieldsAreNotRead : Obligations.ScratchFieldsAreNotRead := by
  intro i s s' t h e
  obtain ⟨op, encoded, rfl⟩ := exec_next_iff.mp e
  refine ⟨_, exec_some encoded s', ?_, ?_⟩
  · rw [cyclesOf_congr h]
    exact epilogue_congr (ruleOf_congr (wellFormed_of_opcodeByte encoded) (ruleState_sameInputs h op i.operand)) _
  · exact (cyclesOf_congr h i op).symm

end Sys2Proof.Machine

/-! ### D and I are inert (R24, R25, R88) -/

namespace Sys2Proof.Machine

/-- Writes of two different flags commute (R29). -/
theorem setFlag_comm {f g : Flag} (h : f ≠ g) (b c : Bool) (sr : Byte) :
    setFlag f b (setFlag g c sr) = setFlag g c (setFlag f b sr) := by
  apply sr_ext
  intro k
  by_cases hf : f = k
  · subst hf; simp [h.symm]
  · simp [getFlag_setFlag, hf]

theorem state_setFlag_comm {f g : Flag} (h : f ≠ g) (b c : Bool) (s : State) :
    (s.setFlag f b).setFlag g c = (s.setFlag g c).setFlag f b := by
  simp only [State.setFlag, setFlag_comm h]

/-! #### Operations that take no flag -/

section AnyFlag

variable (f : Flag) (b : Bool) (s : State)

@[simp] theorem fetch_setFlag (m : Operand) : fetch m (s.setFlag f b) = (fetch m s).setFlag f b := by
  cases m <;> rfl
@[simp] theorem resolve_setFlag (m : Operand) : resolve m (s.setFlag f b) = (resolve m s).setFlag f b := by
  cases m <;> rfl
@[simp] theorem write_setFlag (w : Addr) (v : Byte) : (s.setFlag f b).write w v = (s.write w v).setFlag f b := rfl
@[simp] theorem setPc_setFlag (w : Addr) : (s.setFlag f b).setPc w = (s.setPc w).setFlag f b := rfl
@[simp] theorem setSp_setFlag (v : Byte) : (s.setFlag f b).setSp v = (s.setSp v).setFlag f b := rfl
@[simp] theorem push_setFlag (v : Byte) : push v (s.setFlag f b) = (push v s).setFlag f b := rfl
@[simp] theorem pushWord_setFlag (w : Addr) : pushWord w (s.setFlag f b) = (pushWord w s).setFlag f b := rfl
@[simp] theorem pull_setFlag : pull (s.setFlag f b) = ((pull s).1, (pull s).2.setFlag f b) := rfl
@[simp] theorem pullWord_setFlag : pullWord (s.setFlag f b) = ((pullWord s).1, (pullWord s).2.setFlag f b) := rfl
@[simp] theorem crossed_setFlag (m : Operand) : crossed m (s.setFlag f b) = crossed m s := by cases m <;> rfl
@[simp] theorem branchCycles_setFlag (c : Bool) : branchCycles c (s.setFlag f b) = branchCycles c s := rfl

end AnyFlag

/-! #### Operations that write or test flags other than D and I -/

section Inert

variable {f : Flag} (hf : f ∈ [.d, .i])
include hf

/-- D and I are none of the flags that an operation below writes or tests. -/
theorem inert_ne : f ≠ .c ∧ f ≠ .z ∧ f ≠ .v ∧ f ≠ .n := by
  simp only [List.mem_cons, List.not_mem_nil, or_false] at hf
  rcases hf with rfl | rfl <;> decide

theorem inert_ne_u : f ≠ .u := by
  rintro rfl
  simp at hf

/-- PLP and RTI write D and I both (R30). -/
theorem inert_mem_pulled : f ∈ [.n, .v, .b, .d, .i, .z, .c] := by
  simp only [List.mem_cons, List.not_mem_nil, or_false] at hf
  rcases hf with rfl | rfl <;> decide

theorem setZN_setFlag (v : Byte) (b : Bool) (sr : Byte) :
    setZN v (setFlag f b sr) = setFlag f b (setZN v sr) := by
  obtain ⟨-, hz, -, hn⟩ := inert_ne hf
  rw [setZN, setZN, setFlag_comm hn, setFlag_comm hz]

theorem shiftFlags_setFlag (out : Bool) (r : Byte) (b : Bool) (sr : Byte) :
    shiftFlags out r (setFlag f b sr) = setFlag f b (shiftFlags out r sr) := by
  rw [shiftFlags, shiftFlags, ← setFlag_comm (inert_ne hf).1, setZN_setFlag hf]

theorem compareFlags_setFlag (r m : Byte) (b : Bool) (sr : Byte) :
    compareFlags r m (setFlag f b sr) = setFlag f b (compareFlags r m sr) := by
  obtain ⟨hc, hz, -, hn⟩ := inert_ne hf
  rw [compareFlags, compareFlags, setFlag_comm hn, setFlag_comm hz, setFlag_comm hc]

theorem bitFlags_setFlag (a m : Byte) (b : Bool) (sr : Byte) :
    bitFlags a m (setFlag f b sr) = setFlag f b (bitFlags a m sr) := by
  obtain ⟨-, hz, hv, hn⟩ := inert_ne hf
  rw [bitFlags, bitFlags, setFlag_comm hv, setFlag_comm hn, setFlag_comm hz]

theorem adcSum_setFlag (a m : Byte) (b : Bool) (sr : Byte) : adcSum a m (setFlag f b sr) = adcSum a m sr := by
  rw [adcSum, adcSum, carryIn, carryIn, getFlag_setFlag_ne (inert_ne hf).1]

theorem adcResult_setFlag (a m : Byte) (b : Bool) (sr : Byte) :
    adcResult a m (setFlag f b sr) = adcResult a m sr := by
  rw [adcResult, adcResult, adcSum_setFlag hf]

theorem adcFlags_setFlag (a m : Byte) (b : Bool) (sr : Byte) :
    adcFlags a m (setFlag f b sr) = setFlag f b (adcFlags a m sr) := by
  obtain ⟨hc, hz, hv, hn⟩ := inert_ne hf
  simp only [adcFlags, adcSum_setFlag hf, adcResult_setFlag hf]
  rw [setFlag_comm hn, setFlag_comm hv, setFlag_comm hz, setFlag_comm hc]

variable (b : Bool) (s : State)

/-! Rules: each reads and writes SR through the flag computations above only. -/

theorem setA_setFlag (v : Byte) : setA v (s.setFlag f b) = (setA v s).setFlag f b := by
  simp [setA, State.setZN, State.setFlag, setZN_setFlag hf]

theorem setX_setFlag (v : Byte) : setX v (s.setFlag f b) = (setX v s).setFlag f b := by
  simp [setX, State.setZN, State.setFlag, setZN_setFlag hf]

theorem setY_setFlag (v : Byte) : setY v (s.setFlag f b) = (setY v s).setFlag f b := by
  simp [setY, State.setZN, State.setFlag, setZN_setFlag hf]

theorem addToA_setFlag (v : Byte) : addToA v (s.setFlag f b) = (addToA v s).setFlag f b := by
  simp [addToA, State.setFlag, adcFlags_setFlag hf, adcResult_setFlag hf]

theorem compareWith_setFlag (v : Byte) : compareWith v (s.setFlag f b) = (compareWith v s).setFlag f b := by
  simp [compareWith, State.setFlag, compareFlags_setFlag hf]

theorem ruleBit_setFlag : ruleBit (s.setFlag f b) = (ruleBit s).setFlag f b := by
  simp [ruleBit, State.setFlag, bitFlags_setFlag hf]

theorem storeCount_setFlag (v : Byte) : storeCount v (s.setFlag f b) = (storeCount v s).setFlag f b := by
  simp [storeCount, State.write, State.setZN, State.setFlag, setZN_setFlag hf]

theorem shiftEnd_setFlag (m : Operand) (out : Bool) (v : Byte) :
    shiftEnd m out v (s.setFlag f b) = (shiftEnd m out v s).setFlag f b := by
  cases m <;> simp [shiftEnd, writeBack, State.write, State.setFlag, shiftFlags_setFlag hf]

/-- No branch tests D or I (R125 to R132). -/
theorem condOf_setFlag (i : Instr) : condOf i (s.setFlag f b) = condOf i s := by
  obtain ⟨hc, hz, hv, hn⟩ := inert_ne hf
  cases i <;> simp [condOf, state_flag_eq, hc, hz, hv, hn]

theorem branchIf_setFlag (i : Instr) :
    branchIf (condOf i) (s.setFlag f b) = (branchIf (condOf i) s).setFlag f b := by
  rw [branchIf, branchIf, condOf_setFlag hf]
  split <;> rfl

theorem ruleState_setFlag (op : Byte) (m : Operand) :
    ruleState op m (s.setFlag f b) = (ruleState op m s).setFlag f b := by
  have forced : prologue op (s.setFlag f b) = (prologue op s).setFlag f b := by
    simp [prologue, State.setFlag, setFlag_comm (inert_ne_u hf)]
  rw [ruleState, ruleState, forced, resolve_setFlag]

theorem epilogue_setFlag (n : Nat) : epilogue n (s.setFlag f b) = (epilogue n s).setFlag f b := by
  simp [epilogue, State.setFlag, setFlag_comm (inert_ne_u hf)]

theorem cyclesOf_setFlag (i : Instr) (op : Byte) : cyclesOf i op (s.setFlag f b) = cyclesOf i op s := by
  simp [cyclesOf, ruleState_setFlag hf, condOf_setFlag hf]

/-- A rule that neither writes the flag nor pushes SR commutes with a write of it. -/
theorem ruleOf_setFlag {i : Instr} (unwritten : f ∉ flagsWritten i.mnemonic)
    (unpushed : i.mnemonic ∉ [.php, .brk]) :
    ruleOf i (s.setFlag f b) = (ruleOf i s).setFlag f b := by
  cases i with
  | adc | sbc => simp [ruleOf, ruleAdc, ruleSbc, addToA_setFlag hf]
  | and | ora | eor | lda | txa | tya | pla => simp [ruleOf, setA_setFlag hf]
  | ldx | tax | tsx | inx | dex => simp [ruleOf, setX_setFlag hf]
  | ldy | tay | iny | dey => simp [ruleOf, setY_setFlag hf]
  | cmp | cpx | cpy => simp [ruleOf, compareWith_setFlag hf]
  | bit => simp [ruleOf, ruleBit_setFlag hf]
  | asl | lsr | rol | ror =>
    simp [ruleOf, ruleAsl, ruleLsr, ruleRol, ruleRor, shiftEnd_setFlag hf, state_flag_eq,
      getFlag_setFlag_ne (inert_ne hf).1]
  | inc | dec => simp [ruleOf, storeCount_setFlag hf]
  | sta | stx | sty | txs | pha | jmp | jsr | rts => simp [ruleOf]
  | bpl | bmi | bvc | bvs | bcc | bcs | bne | beq => exact branchIf_setFlag hf b s _
  | clc | sec | cli | sei | clv | cld | sed =>
    simp only [Instr.mnemonic, flagsWritten, List.mem_singleton] at unwritten
    exact state_setFlag_comm unwritten b _ s
  | plp | rti => exact absurd (inert_mem_pulled hf) unwritten
  | php | brk => simp [Instr.mnemonic] at unpushed
  | nop | xxx => rfl

end Inert

/-- Settles O20: the write of the flag commutes with every stage of the dispatch. -/
theorem decimalAndInterruptFlagsAreInert : Obligations.DecimalAndInterruptFlagsAreInert := by
  intro i f b s t hf unwritten unpushed e
  obtain ⟨op, encoded, rfl⟩ := exec_next_iff.mp e
  rw [exec_some encoded, cyclesOf_setFlag hf, ruleState_setFlag hf, ruleOf_setFlag hf _ _ unwritten unpushed,
    epilogue_setFlag hf]

end Sys2Proof.Machine

/-! ### The bus contents (R36, R37) -/

namespace Sys2Proof.Machine

/-- Outside the space a write does nothing (R37). -/
theorem write_of_outside {a : Nat} (h : Config.memorySize ≤ a) (m : Memory) (v : Byte) : m.write a v = m := by
  simp [Memory.write, Nat.not_lt.mpr h]

/-- Outside the space a read gives 0 (R37). -/
theorem read_of_outside {a : Nat} (h : Config.memorySize ≤ a) (m : Memory) : m.read a = 0 := by
  simp [Memory.read, Nat.not_lt.mpr h]

/-- A read inside the space sees a write at any address, inside the space or not (R36, R37). -/
theorem read_write_of_inside {b : Nat} (hb : b < Config.memorySize) (m : Memory) (a : Nat) (v : Byte) :
    (m.write a v).read b = if a = b then v else m.read b := by
  by_cases ha : a < Config.memorySize
  · exact read_write m a b v ha
  · have apart : a ≠ b := by omega
    rw [write_of_outside (Nat.not_lt.mp ha), if_neg apart]

/-- Settles O21, by induction on the list of writes from its end. -/
theorem busReadsTheLastWrite : Obligations.BusReadsTheLastWrite := by
  refine ⟨fun m writes a ha => ?_, fun m a v ha => ⟨read_of_outside ha m, write_of_outside ha m v⟩⟩
  induction writes using List.reverseRecOn with
  | nil => rfl
  | append_singleton earlier w ih =>
    by_cases hit : w.1 = a
    · simp [read_write_of_inside ha, hit]
    · simp [read_write_of_inside ha, hit, ih]

theorem wfFrom_cons {low k : Nat} {v : Byte} {rest : Memory} : Memory.wfFrom low ((k, v) :: rest) = true ↔
    low ≤ k ∧ k < Config.memorySize ∧ v ≠ Config.initByte ∧ Memory.wfFrom (k + 1) rest = true := by
  simp [Memory.wfFrom, and_assoc]

/-- A canonical memory lists nothing below its lower bound. -/
theorem lookup_below {m : Memory} {low a : Nat} (h : m.wfFrom low = true) (ha : a < low) :
    m.lookup a = Config.initByte := by
  induction m generalizing low with
  | nil => rfl
  | cons cell rest ih =>
    obtain ⟨k, v⟩ := cell
    obtain ⟨above, -, -, canonical⟩ := wfFrom_cons.mp h
    rw [Memory.lookup, if_neg (by omega)]
    exact ih canonical (by omega)

/-- The head of a canonical memory lies at or below every address that reads as another byte than the unlisted one. -/
theorem head_le_of_lookup {low k a : Nat} {v : Byte} {rest : Memory}
    (h : Memory.wfFrom low ((k, v) :: rest) = true)
    (listed : Memory.lookup ((k, v) :: rest) a ≠ Config.initByte) : k ≤ a := by
  obtain ⟨-, inside, written, canonical⟩ := wfFrom_cons.mp h
  by_contra below
  exact listed (lookup_below (wfFrom_cons.mpr ⟨le_refl k, inside, written, canonical⟩) (Nat.not_le.mp below))

theorem lookup_head (k : Nat) (v : Byte) (rest : Memory) : Memory.lookup ((k, v) :: rest) k = v := by
  simp [Memory.lookup]

/-- A canonical memory with an entry does not read as the empty one. -/
theorem lookup_ne_of_cons {low k : Nat} {v : Byte} {rest : Memory}
    (h : Memory.wfFrom low ((k, v) :: rest) = true) :
    k < Config.memorySize ∧ Memory.lookup ((k, v) :: rest) k ≠ Config.initByte := by
  obtain ⟨-, inside, written, -⟩ := wfFrom_cons.mp h
  exact ⟨inside, by rwa [lookup_head]⟩

/-- Two canonical memories with the same byte at every address of the space have the same first entry, and so on. -/
theorem eq_of_lookup_eq {m m' : Memory} {low : Nat} (h : m.wfFrom low = true) (h' : m'.wfFrom low = true)
    (same : ∀ a, a < Config.memorySize → m.lookup a = m'.lookup a) : m = m' := by
  induction m generalizing low m' with
  | nil =>
    cases m' with
    | nil => rfl
    | cons cell' rest' =>
      obtain ⟨inside, listed⟩ := lookup_ne_of_cons h'
      exact absurd (same _ inside).symm listed
  | cons cell rest ih =>
    obtain ⟨k, v⟩ := cell
    obtain ⟨inside, listed⟩ := lookup_ne_of_cons h
    cases m' with
    | nil => exact absurd (same k inside) listed
    | cons cell' rest' =>
      obtain ⟨k', v'⟩ := cell'
      obtain ⟨inside', listed'⟩ := lookup_ne_of_cons h'
      obtain rfl : k = k' := Nat.le_antisymm
        (head_le_of_lookup h (by rwa [same k' inside'])) (head_le_of_lookup h' (by rwa [← same k inside]))
      obtain rfl : v = v' := by simpa only [lookup_head] using same k inside
      obtain ⟨-, -, -, canonical⟩ := wfFrom_cons.mp h
      obtain ⟨-, -, -, canonical'⟩ := wfFrom_cons.mp h'
      refine congrArg ((k, v) :: ·) (ih canonical canonical' fun a ha => ?_)
      by_cases head : k = a
      · subst head
        rw [lookup_below canonical (Nat.lt_succ_self k), lookup_below canonical' (Nat.lt_succ_self k)]
      · simpa [Memory.lookup, head] using same a ha

/-- Settles O22: the law of writes, and the entries compared from the front. -/
theorem canonicalMemoryIsUnique : Obligations.CanonicalMemoryIsUnique := by
  refine ⟨fun m a v h => wf_write h a v, fun m m' h h' same => eq_of_lookup_eq h h' fun a ha => ?_⟩
  have read := same a ha
  rwa [Memory.read, Memory.read, if_pos ha, if_pos ha] at read

/-! ### The stack (R46 to R49) -/

/-- Settles O27, by the laws of push and pull. -/
theorem pushAndPullFollowTheProtocol : Obligations.PushAndPullFollowTheProtocol := by
  intro v s
  refine ⟨⟨by simp, fun a other => by simp [other.symm]⟩, ?_, rfl, ?_, rfl, stackAddr_toNat s.sp, by simp⟩
  · rw [push_sp, BitVec.toNat_sub]
    simp [Nat.add_comm]
  · rw [pull_sp, BitVec.toNat_add]
    rfl

/-- Settles O28: where the two bytes lie, and that two pulls read them back. -/
theorem wordsArePushedHighByteFirst : Obligations.WordsArePushedHighByteFirst := by
  intro w s
  exact ⟨rfl, by simp, by simp, pullWord_fst s, by simp [pullWord_fst], by simp⟩

end Sys2Proof.Machine

/-! ### A dispatch on another memory (R50, R86) -/

namespace Sys2Proof.Machine

/-! #### What a list of accesses writes -/

theorem applyAccesses_append (l l' : List BusAccess) (m : Memory) :
    applyAccesses (l ++ l') m = applyAccesses l' (applyAccesses l m) := by
  induction l generalizing m with
  | nil => rfl
  | cons access rest ih => cases access <;> exact ih _

/-- Reads change nothing on the bus (R45). -/
theorem applyAccesses_of_writes_nothing {l : List BusAccess} (h : writtenAddrs l = []) (m : Memory) :
    applyAccesses l m = m := by
  induction l with
  | nil => rfl
  | cons access rest ih =>
    cases access with
    | read a v => exact ih h
    | write a v => cases h

theorem readAddrs_append (l l' : List BusAccess) : readAddrs (l ++ l') = readAddrs l ++ readAddrs l' := by
  induction l with
  | nil => rfl
  | cons access rest ih => cases access <;> simp [readAddrs, ih]

theorem writtenAddrs_streamReads (a : Addr) (bytes : List Byte) : writtenAddrs (streamReads a bytes) = [] := by
  induction bytes generalizing a with
  | nil => rfl
  | cons v rest ih => exact ih (a + 1)

theorem writtenAddrs_pointerReads (m : Operand) (s : State) : writtenAddrs (pointerReads m s) = [] := by
  cases m <;> rfl

theorem writtenAddrs_fetchAccess (m : Operand) (s : State) : writtenAddrs (fetchAccess m s) = [] := by
  cases m <;> rfl

theorem writtenAddrs_pullAccesses (s : State) (sp : Byte) (k : Nat) : writtenAddrs (pullAccesses s sp k) = [] := by
  induction k generalizing sp with
  | zero => rfl
  | succ k ih => exact ih (sp + 1)

/-- The accesses of a dispatch of a term of the table (R50). -/
theorem dispatchAccesses_some {i : Instr} {op : Byte} (h : i.opcodeByte = some op) (s : State) :
    dispatchAccesses i s = .read s.pc op :: streamReads (s.pc + 1) (modeStream i.operand) ++
      pointerReads i.operand (prologue op s) ++ ruleAccesses i (ruleState op i.operand s) := by
  simp [dispatchAccesses, h]

/-- Only the instruction's own rule writes: the opcode, operand and pointer accesses before it are reads. -/
theorem applyAccesses_dispatchAccesses {i : Instr} {op : Byte} (h : i.opcodeByte = some op) (s : State) (m : Memory) :
    applyAccesses (dispatchAccesses i s) m = applyAccesses (ruleAccesses i (ruleState op i.operand s)) m := by
  rw [dispatchAccesses_some h, applyAccesses_append, applyAccesses_append, applyAccesses,
    applyAccesses_of_writes_nothing (writtenAddrs_streamReads _ _),
    applyAccesses_of_writes_nothing (writtenAddrs_pointerReads _ _)]

/-! #### The same state on another memory -/

/-- `s` with the bus contents `m`. -/
def State.withMem (s : State) (m : Memory) : State := { s with mem := m }

/-- The memory `m` gives the byte that `s` holds at each of the addresses. -/
def State.AgreesOn (s : State) (m : Memory) (addrs : List Addr) : Prop :=
  ∀ a ∈ addrs, m.read a.toNat = s.read a

theorem agreesOn_cons {s : State} {m : Memory} {a : Addr} {addrs : List Addr} :
    s.AgreesOn m (a :: addrs) ↔ m.read a.toNat = s.read a ∧ s.AgreesOn m addrs := by
  simp [State.AgreesOn]

theorem agreesOn_append {s : State} {m : Memory} {l l' : List Addr} :
    s.AgreesOn m (l ++ l') ↔ s.AgreesOn m l ∧ s.AgreesOn m l' := by
  simp [State.AgreesOn, or_imp, forall_and]

section WithMem

variable (s : State) (m : Memory)

@[simp] theorem withMem_a : (s.withMem m).a = s.a := rfl
@[simp] theorem withMem_x : (s.withMem m).x = s.x := rfl
@[simp] theorem withMem_y : (s.withMem m).y = s.y := rfl
@[simp] theorem withMem_sp : (s.withMem m).sp = s.sp := rfl
@[simp] theorem withMem_sr : (s.withMem m).sr = s.sr := rfl
@[simp] theorem withMem_pc : (s.withMem m).pc = s.pc := rfl
@[simp] theorem withMem_addressAbs : (s.withMem m).addressAbs = s.addressAbs := rfl
@[simp] theorem withMem_fetched : (s.withMem m).fetched = s.fetched := rfl
@[simp] theorem withMem_read (a : Addr) : (s.withMem m).read a = m.read a.toNat := rfl
@[simp] theorem withMem_flag (f : Flag) : (s.withMem m).flag f = s.flag f := rfl

/-! Operations that access no memory commute with the change of memory. -/

@[simp] theorem prologue_withMem (op : Byte) : prologue op (s.withMem m) = (prologue op s).withMem m := rfl
@[simp] theorem epilogue_withMem (n : Nat) : epilogue n (s.withMem m) = (epilogue n s).withMem m := rfl
@[simp] theorem setPc_withMem (w : Addr) : (s.withMem m).setPc w = (s.setPc w).withMem m := rfl
@[simp] theorem setSr_withMem (v : Byte) : (s.withMem m).setSr v = (s.setSr v).withMem m := rfl
@[simp] theorem setA_withMem (v : Byte) : setA v (s.withMem m) = (setA v s).withMem m := rfl
@[simp] theorem setX_withMem (v : Byte) : setX v (s.withMem m) = (setX v s).withMem m := rfl
@[simp] theorem setY_withMem (v : Byte) : setY v (s.withMem m) = (setY v s).withMem m := rfl
@[simp] theorem ruleAdc_withMem : ruleAdc (s.withMem m) = (ruleAdc s).withMem m := rfl
@[simp] theorem ruleSbc_withMem : ruleSbc (s.withMem m) = (ruleSbc s).withMem m := rfl
@[simp] theorem ruleBit_withMem : ruleBit (s.withMem m) = (ruleBit s).withMem m := rfl
@[simp] theorem compareWith_withMem (v : Byte) :
    compareWith v (s.withMem m) = (compareWith v s).withMem m := rfl
@[simp] theorem branchCycles_withMem (c : Bool) : branchCycles c (s.withMem m) = branchCycles c s := rfl

@[simp] theorem condOf_withMem (i : Instr) : condOf i (s.withMem m) = condOf i s := by
  cases i <;> rfl

theorem branchIf_withMem (i : Instr) :
    branchIf (condOf i) (s.withMem m) = (branchIf (condOf i) s).withMem m := by
  rw [branchIf, branchIf, condOf_withMem]
  split <;> rfl

/-! Operations that write make the same writes on the other memory. -/

@[simp] theorem storeCount_withMem (v : Byte) :
    storeCount v (s.withMem m) = (storeCount v s).withMem (m.write s.addressAbs.toNat v) := rfl

theorem shiftEnd_withMem (mode : Operand) (out : Bool) (v : Byte) : shiftEnd mode out v (s.withMem m) =
    (shiftEnd mode out v s).withMem (applyAccesses (writeBackAccess mode v s) m) := by
  cases mode <;> rfl

end WithMem

/-! Operations that read commute where the other memory agrees on the bytes read. -/

section Reading

variable {s : State} {m : Memory}

theorem readWord_withMem {lo hi : Addr} {rest : List Addr} (h : s.AgreesOn m (lo :: hi :: rest)) :
    (s.withMem m).readWord lo hi = s.readWord lo hi := by
  simp only [agreesOn_cons] at h
  obtain ⟨low, high, -⟩ := h
  rw [State.readWord, State.readWord, withMem_read, withMem_read, low, high]

/-- An effective address is read through the mode's pointer bytes (R80 to R82). -/
theorem effectiveAddress_withMem {mode : Operand} (h : s.AgreesOn m (readAddrs (pointerReads mode s))) :
    effectiveAddress mode (s.withMem m) = effectiveAddress mode s := by
  cases mode with
  | ind p => exact readWord_withMem h
  | izx p => exact readWord_withMem h
  | izy p => exact congrArg (· + zext16 s.y) (readWord_withMem h)
  | _ => rfl

theorem crossed_withMem {mode : Operand} (h : s.AgreesOn m (readAddrs (pointerReads mode s))) :
    crossed mode (s.withMem m) = crossed mode s := by
  have address := effectiveAddress_withMem h
  cases mode with
  | izy p =>
    have base : baseAddress (.izy p) (s.withMem m) = baseAddress (.izy p) s := readWord_withMem h
    simp only [crossed, address, base]
  | _ => rfl

theorem resolve_withMem {mode : Operand} (h : s.AgreesOn m (readAddrs (pointerReads mode s))) :
    resolve mode (s.withMem m) = (resolve mode s).withMem m := by
  have address := effectiveAddress_withMem h
  cases mode with
  | ind p | izx p | izy p => simp only [resolve, address]; rfl
  | _ => rfl

theorem ruleState_withMem {op : Byte} {mode : Operand}
    (h : (prologue op s).AgreesOn m (readAddrs (pointerReads mode (prologue op s)))) :
    ruleState op mode (s.withMem m) = (ruleState op mode s).withMem m := by
  rw [ruleState, ruleState, prologue_withMem, resolve_withMem h]

theorem fetch_withMem {mode : Operand} (h : s.AgreesOn m (readAddrs (fetchAccess mode s))) :
    fetch mode (s.withMem m) = (fetch mode s).withMem m := by
  cases mode with
  | imp => rfl
  | imm i => rfl
  | _ =>
    have read : m.read s.addressAbs.toNat = s.read s.addressAbs := (agreesOn_cons.mp h).1
    simp only [fetch, withMem_addressAbs, withMem_read, read]; rfl

theorem pull_withMem {rest : List Addr} (h : s.AgreesOn m (stackAddr (s.sp + 1) :: rest)) :
    pull (s.withMem m) = ((pull s).1, (pull s).2.withMem m) :=
  Prod.ext (agreesOn_cons.mp h).1 rfl

theorem pullWord_withMem {rest : List Addr}
    (h : s.AgreesOn m (stackAddr (s.sp + 1) :: stackAddr (s.sp + 1 + 1) :: rest)) :
    pullWord (s.withMem m) = ((pullWord s).1, (pullWord s).2.withMem m) := by
  refine Prod.ext ?_ rfl
  simp only [agreesOn_cons] at h
  obtain ⟨low, high, -⟩ := h
  simp only [pullWord_fst, withMem_sp, withMem_read, low, high]

theorem returnFromTrap_withMem {rest : List Addr}
    (h : s.AgreesOn m (stackAddr (s.sp + 1) :: stackAddr (s.sp + 1 + 1) :: stackAddr (s.sp + 1 + 1 + 1) :: rest)) :
    returnFromTrap (s.withMem m) = (returnFromTrap s).withMem m := by
  have address := pullWord_withMem (s := (pull s).2.setSr (pulledStatus (pull s).1)) (agreesOn_cons.mp h).2
  simp only [returnFromTrap, pull_withMem h, setSr_withMem, address, setPc_withMem]

/-- Trap entry as its pushes, the write of I and the jump through the vector as it was on entry (R150). -/
theorem enterTrap_eq (s : State) : enterTrap s =
    ((push (pushedStatus s.sr) (pushWord (s.pc + 1) s)).setFlag .i true).setPc
      (s.readWord Config.brkVectorLo Config.brkVectorHi) := by
  rw [← enterTrap_pc]; rfl

/-- The count reads memory through the addressing mode only (R167, R168). -/
theorem cyclesOf_withMem {i : Instr} {op : Byte}
    (h : (prologue op s).AgreesOn m (readAddrs (pointerReads i.operand (prologue op s)))) :
    cyclesOf i op (s.withMem m) = cyclesOf i op s := by
  simp only [cyclesOf, prologue_withMem, crossed_withMem h, ruleState_withMem h, condOf_withMem, branchCycles_withMem]

theorem agreesOn_ruleState (op : Byte) (mode : Operand) {addrs : List Addr} :
    (ruleState op mode s).AgreesOn m addrs ↔ s.AgreesOn m addrs := by
  simp [State.AgreesOn]

end Reading

/-- What `Fetch` and WriteBack, in that order, leave on a bus: the write alone. -/
theorem applyAccesses_fetchAccess_append (mode : Operand) (s : State) (l : List BusAccess) (m : Memory) :
    applyAccesses (fetchAccess mode s ++ l) m = applyAccesses l m := by
  rw [applyAccesses_append, applyAccesses_of_writes_nothing (writtenAddrs_fetchAccess mode s)]

theorem writeBackAccess_fetch (mode : Operand) (v : Byte) (s : State) :
    writeBackAccess mode v (fetch mode s) = writeBackAccess mode v s := by
  cases mode <;> rfl

/-- A rule on another memory that agrees on the bytes the rule reads: the same state, and the same writes (R50.4). -/
theorem ruleOf_withMem {i : Instr} {r : State} {m : Memory} (h : r.AgreesOn m (readAddrs (ruleAccesses i r))) :
    ruleOf i (r.withMem m) = (ruleOf i r).withMem (applyAccesses (ruleAccesses i r) m) := by
  cases i with
  | adc o | sbc o | and o | ora o | eor o | cmp o | cpx o | cpy o | bit o | lda o | ldx o | ldy o =>
    have fetched : fetch o (r.withMem m) = (fetch o r).withMem m := fetch_withMem h
    have readsOnly : applyAccesses (fetchAccess o r) m = m :=
      applyAccesses_of_writes_nothing (writtenAddrs_fetchAccess o r) m
    simp [ruleOf, ruleAccesses, fetched, readsOnly]
  | asl o | lsr o | rol o | ror o =>
    rw [ruleAccesses, readAddrs_append, agreesOn_append] at h
    have fetched : fetch o (r.withMem m) = (fetch o r).withMem m := fetch_withMem h.1
    simp [ruleOf, ruleAsl, ruleLsr, ruleRol, ruleRor, ruleAccesses, fetched, shiftEnd_withMem,
      applyAccesses_fetchAccess_append, writeBackAccess_fetch, state_flag_eq]
  | inc o | dec o =>
    rw [ruleAccesses, readAddrs_append, agreesOn_append] at h
    have fetched : fetch o (r.withMem m) = (fetch o r).withMem m := fetch_withMem h.1
    simp [ruleOf, ruleAccesses, fetched, applyAccesses_fetchAccess_append, applyAccesses]
  | pla | plp => simp [ruleOf, pull_withMem h, ruleAccesses, pullAccesses, readOf, applyAccesses]
  | rts => simp [ruleOf, pullWord_withMem h, ruleAccesses, pullAccesses, readOf, applyAccesses]
  | rti => exact returnFromTrap_withMem h
  | brk =>
    have vector : (r.withMem m).readWord Config.brkVectorLo Config.brkVectorHi =
        r.readWord Config.brkVectorLo Config.brkVectorHi := readWord_withMem h
    rw [ruleOf, ruleOf, enterTrap_eq, enterTrap_eq, vector]
    rfl
  | bpl d | bmi d | bvc d | bvs d | bcc d | bcs d | bne d | beq d => exact branchIf_withMem r m _
  | _ => rfl -- the rules that read nothing: their writes, if any, are the same on both memories

/-- Settles O24: the addressing mode reads the pointer bytes and the rule its own, and nothing else reads memory. -/
theorem dispatchDependsOnlyOnBytesItReads : Obligations.DispatchDependsOnlyOnBytesItReads := by
  intro i s t m' e agree
  obtain ⟨op, encoded, rfl⟩ := exec_next_iff.mp e
  have agree : s.AgreesOn m' (readAddrs (dispatchAccesses i s)) := agree
  rw [dispatchAccesses_some encoded, readAddrs_append, readAddrs_append, agreesOn_append, agreesOn_append] at agree
  obtain ⟨⟨-, pointers⟩, rule⟩ := agree
  change exec i (s.withMem m') = .next (State.withMem _ _)
  rw [exec_some encoded, cyclesOf_withMem pointers, ruleState_withMem pointers,
    ruleOf_withMem ((agreesOn_ruleState op i.operand).mpr rule), epilogue_withMem,
    applyAccesses_dispatchAccesses encoded]

/-- Settles O23: O24 on the memory of the dispatch itself. -/
theorem dispatchWritesAreItsAccessList : Obligations.DispatchWritesAreItsAccessList := by
  intro i s t e
  have onItsOwnMemory := dispatchDependsOnlyOnBytesItReads i s t s.mem e fun _ _ => rfl
  have same : t = { t with mem := applyAccesses (dispatchAccesses i s) s.mem } :=
    Host.Outcome.next.inj (e.symm.trans onItsOwnMemory)
  exact congrArg State.mem same

/-- A form that stores nothing has no write in its rule's accesses (R50.4, R85). -/
theorem writtenAddrs_ruleAccesses {i : Instr} (h : storesToMemory i = false) (r : State) :
    writtenAddrs (ruleAccesses i r) = [] := by
  cases i with
  | sta | stx | sty | inc | dec | pha | php | jsr | brk => cases h
  | asl o | lsr o | rol o | ror o =>
    cases o with
    | imp => rfl
    | _ => cases h
  | adc o | sbc o | and o | ora o | eor o | cmp o | cpx o | cpy o | bit o | lda o | ldx o | ldy o =>
    exact writtenAddrs_fetchAccess o r
  | pla | plp | rts | rti => exact writtenAddrs_pullAccesses r r.sp _
  | _ => rfl

/-- Settles O18: by O23 memory changes by the writes listed, and the list of such a form has none. -/
theorem formsThatStoreNothingKeepMemory : Obligations.FormsThatStoreNothingKeepMemory := by
  intro i s t e storesNothing a
  obtain ⟨op, encoded, -⟩ := exec_next_iff.mp e
  have kept : t.mem = s.mem := by
    rw [dispatchWritesAreItsAccessList i s t e, applyAccesses_dispatchAccesses encoded,
      applyAccesses_of_writes_nothing (writtenAddrs_ruleAccesses storesNothing _)]
  exact read_of_mem_eq kept a

end Sys2Proof.Machine

/-! ### The instruction that stands at PC (R57, R63, R66) -/

namespace Sys2Proof

/-- Every table entry pairs a mnemonic with a mode that its rule lists (R64). -/
theorem opTable_mode_mem : ∀ op : Byte, (opTable op).2 ∈ (opTable op).1.modes := by decide

/-- The grid of R64 agrees with its listing by mnemonic and with the list of illegal opcodes (R65). -/
theorem opTable_listed : ∀ op : Byte,
    if (opTable op).1 = .xxx then op ∈ illegalOpcodes
    else (opTable op).1.opcodes.lookup (opTable op).2 = some op := by decide

theorem assemble_mnemonic (n : Mnemonic) (k : Mode) (op b1 b2 : Byte) : (assemble n k op b1 b2).mnemonic = n := by
  cases n <;> rfl

/-- An assembled instruction carries the operand bytes of its mode (R58 to R62). -/
theorem assemble_operand {n : Mnemonic} {k : Mode} (h : k ∈ n.modes) (op b1 b2 : Byte) :
    (assemble n k op b1 b2).operand = k.operand b1 b2 := by
  cases n with
  | adc | and | ora | eor | sbc | cmp | cpx | cpy | bit | asl | lsr | rol | ror | inc | dec | lda | ldx | ldy | sta
  | stx | sty | jmp => rfl
  | _ =>
    obtain rfl := List.mem_singleton.mp h
    rfl

@[simp] theorem operand_mode (k : Mode) (b1 b2 : Byte) : (k.operand b1 b2).mode = k := by
  cases k <;> rfl

theorem opcodeByte_of_documented {i : Instr} (h : i.mnemonic ≠ .xxx) :
    i.opcodeByte = i.mnemonic.opcodes.lookup i.operand.mode := by
  cases i with
  | xxx op => exact absurd rfl h
  | _ => rfl

/-- The opcode byte of a decoded instruction is the byte it was decoded from (R66). -/
theorem opcodeByte_decodeBytes (op b1 b2 : Byte) : (decodeBytes op b1 b2).opcodeByte = some op := by
  have listed := opTable_listed op
  by_cases illegal : (opTable op).1 = .xxx
  · rw [if_pos illegal] at listed
    simp [decodeBytes, illegal, assemble, Instr.opcodeByte, listed]
  · rw [if_neg illegal] at listed
    rw [decodeBytes, opcodeByte_of_documented (by rwa [assemble_mnemonic]), assemble_mnemonic,
      assemble_operand (opTable_mode_mem op), operand_mode, listed]

namespace Machine

/-! ### What the reads of a tick give (R36, R45) -/

/-- Every read in the list moves the byte that memory holds. -/
def ReadsHold (s : State) (l : List BusAccess) : Prop := ∀ a v, BusAccess.read a v ∈ l → v = s.read a

section ReadsHold

variable (s : State) (a : Addr) (v : Byte) (l l' : List BusAccess)

@[simp] theorem readsHold_nil : ReadsHold s [] := by simp [ReadsHold]

@[simp] theorem readsHold_read_cons : ReadsHold s (.read a v :: l) ↔ v = s.read a ∧ ReadsHold s l := by
  simp [ReadsHold, or_imp, forall_and]

@[simp] theorem readsHold_readOf_cons : ReadsHold s (readOf s a :: l) ↔ ReadsHold s l := by
  simp [readOf]

@[simp] theorem readsHold_write_cons : ReadsHold s (.write a v :: l) ↔ ReadsHold s l := by
  simp [ReadsHold]

@[simp] theorem readsHold_append : ReadsHold s (l ++ l') ↔ ReadsHold s l ∧ ReadsHold s l' := by
  simp [ReadsHold, or_imp, forall_and]

@[simp] theorem readsHold_pushAccesses (sp : Byte) (bytes : List Byte) : ReadsHold s (pushAccesses sp bytes) := by
  induction bytes generalizing sp with
  | nil => exact readsHold_nil s
  | cons v rest ih => simpa [pushAccesses] using ih (sp - 1)

@[simp] theorem readsHold_pullAccesses (sp : Byte) (k : Nat) : ReadsHold s (pullAccesses s sp k) := by
  induction k generalizing sp with
  | zero => exact readsHold_nil s
  | succ k ih => simpa [pullAccesses] using ih (sp + 1)

@[simp] theorem readsHold_writeBackAccess (m : Operand) : ReadsHold s (writeBackAccess m v s) := by
  cases m <;> simp [writeBackAccess]

@[simp] theorem readsHold_pointerReads (m : Operand) : ReadsHold s (pointerReads m s) := by
  cases m <;> simp [pointerReads]

end ReadsHold

/-- `Fetch` moves the byte at `addressAbs`, in IMM too where that byte is the operand (R84). -/
theorem readsHold_fetchAccess {s : State} {m : Operand} (immediate : ∀ i, m = .imm i → i = s.read s.addressAbs) :
    ReadsHold s (fetchAccess m s) := by
  cases m with
  | imm i => simpa [fetchAccess, fetch] using immediate i rfl
  | _ => simp [fetchAccess, fetch]

/-- The reads of a rule, where the immediate byte is the one at `addressAbs` (R50.4). -/
theorem readsHold_ruleAccesses {i : Instr} {r : State}
    (immediate : ∀ v, i.operand = .imm v → v = r.read r.addressAbs) : ReadsHold r (ruleAccesses i r) := by
  cases i with
  | adc o | sbc o | and o | ora o | eor o | cmp o | cpx o | cpy o | bit o | lda o | ldx o | ldy o =>
    exact readsHold_fetchAccess immediate
  | asl o | lsr o | rol o | ror o | inc o | dec o =>
    have fetched : ReadsHold r (fetchAccess o r) := readsHold_fetchAccess immediate
    simp [ruleAccesses, fetched]
  | _ => simp [ruleAccesses]

/-- The operand bytes that a mode reads after the opcode are those it was decoded from (R57, R86). -/
theorem readsHold_streamReads (s : State) (k : Mode) :
    ReadsHold s (streamReads (s.pc + 1) (modeStream (k.operand (s.read (s.pc + 1)) (s.read (s.pc + 2))))) := by
  have second : s.pc + 1 + 1 = s.pc + 2 := by rw [BitVec.add_assoc]; rfl
  cases k <;> simp only [Mode.operand, modeStream, Operand.bytes, streamReads, second, readsHold_read_cons,
    readsHold_nil, loByte_word, hiByte_word, and_self]

/-- The operand of the instruction at PC is read from the bytes after its opcode (R57). -/
theorem fetchInstr_operand (s : State) : (fetchInstr s).operand =
    (opTable (s.read s.pc)).2.operand (s.read (s.pc + 1)) (s.read (s.pc + 2)) :=
  assemble_operand (opTable_mode_mem _) _ _ _

/-- A mode whose operand is an immediate has the byte after the opcode as its value (R59). -/
theorem operand_eq_imm {k : Mode} {b1 b2 v : Byte} (h : k.operand b1 b2 = .imm v) : v = b1 := by
  cases k with
  | imm => exact (Operand.imm.inj h).symm
  | _ => cases h

/-- IMM puts the address of the byte after the opcode into `addressAbs` (R72). -/
theorem ruleState_addressAbs_imm (op v : Byte) (s : State) : (ruleState op (.imm v) s).addressAbs = s.pc + 1 := rfl

/-- Reads looked at from two states with the same memory. -/
theorem ReadsHold.of_read_eq {s t : State} {l : List BusAccess} (h : ReadsHold t l)
    (same : ∀ a, t.read a = s.read a) : ReadsHold s l :=
  fun a v member => (h a v member).trans (same a)

/-- Every read of the dispatch of the instruction at PC moves the byte that memory holds. -/
theorem readsHold_dispatchAccesses (s : State) : ReadsHold s (dispatchAccesses (fetchInstr s) s) := by
  have encoded : (fetchInstr s).opcodeByte = some (s.read s.pc) := opcodeByte_decodeBytes _ _ _
  have stream := readsHold_streamReads s (opTable (s.read s.pc)).2
  rw [← fetchInstr_operand] at stream
  have pointers : ReadsHold s (pointerReads (fetchInstr s).operand (prologue (s.read s.pc) s)) :=
    (readsHold_pointerReads _ _).of_read_eq (prologue_read s · _)
  have rule : ReadsHold s (ruleAccesses (fetchInstr s) (ruleState (s.read s.pc) (fetchInstr s).operand s)) := by
    refine (readsHold_ruleAccesses fun v immediate => ?_).of_read_eq (ruleState_read _ _ s)
    rw [immediate, ruleState_addressAbs_imm, ruleState_read]
    exact operand_eq_imm ((fetchInstr_operand s).symm.trans immediate)
  rw [dispatchAccesses_some encoded, readsHold_append, readsHold_append, readsHold_read_cons]
  exact ⟨⟨⟨rfl, stream⟩, pointers⟩, rule⟩

/-- Settles O25: an Idle tick makes the accesses of the dispatch, a Busy one none. -/
theorem tickReadsReturnMemory : Obligations.TickReadsReturnMemory := by
  intro s a v member
  rw [tickAccesses] at member
  split at member
  · exact readsHold_dispatchAccesses s a v member
  · cases member

end Machine
end Sys2Proof

/-! ### Encoding and decoding (30_encoding.md R57 to R67)

The decoder reads the grid of R64 and the encoder its listing by mnemonic. `opTable_of_opcodeByte` and
`opcodeByte_decodeBytes` say that the two agree; `decode_ok_iff` says once what decodes. -/

namespace Sys2Proof

/-! #### The grid read at the bytes that the encoder gives -/

/-- The grid has every line of the listing by mnemonic (R64). -/
theorem opTable_of_mem_opcodes (n : Mnemonic) : ∀ e ∈ n.opcodes, opTable e.2 = (n, e.1) := by
  cases n <;> decide

/-- The grid marks every illegal opcode `---` (R65). -/
theorem opTable_of_illegal : ∀ op ∈ illegalOpcodes, opTable op = illegalEntry :=
  List.map_eq_replicate_iff.mp rfl

theorem opcodeByte_xxx {b op : Byte} : (Instr.xxx b).opcodeByte = some op ↔ b ∈ illegalOpcodes ∧ b = op := by
  simp [Instr.opcodeByte]

/-- The table entry at an instruction's opcode byte is its mnemonic and mode (R63). -/
theorem opTable_of_opcodeByte {i : Instr} {op : Byte} (encoded : i.opcodeByte = some op) :
    opTable op = (i.mnemonic, i.operand.mode) := by
  by_cases documented : i.mnemonic = .xxx
  · cases i with
    | xxx b =>
      obtain ⟨illegal, rfl⟩ := opcodeByte_xxx.mp encoded
      exact opTable_of_illegal b illegal
    | _ => cases documented
  · rw [opcodeByte_of_documented documented] at encoded
    obtain ⟨before, after, listing, -⟩ := List.lookup_eq_some_iff.mp encoded
    exact opTable_of_mem_opcodes i.mnemonic (i.operand.mode, op) (by simp [listing])

/-! #### An instruction and the bytes it stands in -/

/-- An instruction is assembled from its own mnemonic, mode, opcode byte and operand bytes. -/
theorem assemble_self {i : Instr} {op b1 b2 : Byte} (encoded : i.opcodeByte = some op)
    (reads : i.operand = i.operand.mode.operand b1 b2) : assemble i.mnemonic i.operand.mode op b1 b2 = i := by
  cases i with
  | adc | and | ora | eor | sbc | cmp | cpx | cpy | bit | asl | lsr | rol | ror | inc | dec | lda | ldx | ldy | sta
  | stx | sty | jmp => exact congrArg _ reads.symm
  | bpl | bmi | bvc | bvs | bcc | bcs | bne | beq => exact congrArg _ (Operand.rel.inj reads).symm
  | jsr => exact congrArg _ (Operand.abs.inj reads).symm
  | xxx b => rw [(opcodeByte_xxx.mp encoded).2]; rfl
  | _ => rfl

/-- The opcode byte and the operand determine the instruction. -/
theorem decodeBytes_of_opcodeByte {i : Instr} {op b1 b2 : Byte} (encoded : i.opcodeByte = some op)
    (reads : i.operand = i.operand.mode.operand b1 b2) : decodeBytes op b1 b2 = i := by
  rw [decodeBytes, opTable_of_opcodeByte encoded, assemble_self encoded reads]

theorem decodeBytes_mnemonic (op b1 b2 : Byte) : (decodeBytes op b1 b2).mnemonic = (opTable op).1 :=
  assemble_mnemonic _ _ _ _ _

theorem decodeBytes_operand (op b1 b2 : Byte) :
    (decodeBytes op b1 b2).operand = (opTable op).2.operand b1 b2 :=
  assemble_operand (opTable_mode_mem op) _ _ _

/-- Bytes that the mode reads alike decode alike. -/
theorem decodeBytes_congr {op b1 b2 c1 c2 : Byte}
    (same : (opTable op).2.operand c1 c2 = (opTable op).2.operand b1 b2) :
    decodeBytes op b1 b2 = decodeBytes op c1 c2 :=
  decodeBytes_of_opcodeByte (opcodeByte_decodeBytes op c1 c2)
    (by rw [decodeBytes_operand, operand_mode, same])

/-- The bytes of an operand are those that its mode consumes, in memory order (R58 to R62). -/
theorem bytes_operand (k : Mode) (b1 b2 : Byte) : (k.operand b1 b2).bytes = [b1, b2].take k.operandBytes := by
  cases k <;> simp [Mode.operand, Operand.bytes, Mode.operandBytes]

/-- Every operand is read by its own mode from some two bytes. -/
theorem exists_operand_bytes (m : Operand) : ∃ b1 b2, m = m.mode.operand b1 b2 := by
  cases m with
  | imp => exact ⟨0, 0, rfl⟩
  | imm b | rel b | zp0 b | zpx b | zpy b | izx b | izy b => exact ⟨b, 0, rfl⟩
  | abs a | abx a | aby a | ind a => exact ⟨loByte a, hiByte a, by simp [Operand.mode, Mode.operand]⟩

theorem length_bytes (m : Operand) : m.bytes.length = m.mode.operandBytes := by
  cases m <;> rfl

theorem encode_eq_some_iff {i : Instr} {bs : List Byte} :
    encode i = some bs ↔ ∃ op, i.opcodeByte = some op ∧ bs = op :: i.operand.bytes := by
  cases e : i.opcodeByte <;> simp [encode, e, eq_comm]

/-! #### What decodes -/

/-- The decoder takes as many operand bytes as the opcode's mode consumes, and looks at no others (R57). -/
theorem decode_take_append (op b1 b2 : Byte) (rest : List Byte) :
    decode (op :: ([b1, b2].take (opTable op).2.operandBytes ++ rest)) = .ok (decodeBytes op b1 b2, rest) := by
  cases k : (opTable op).2 with
  | imp =>
    have unread : decodeBytes op b1 b2 = decodeBytes op 0 0 := decodeBytes_congr (by rw [k]; rfl)
    simp [decode, k, Mode.operandBytes, unread]
  | imm | rel | zp0 | zpx | zpy | izx | izy =>
    have unread : decodeBytes op b1 b2 = decodeBytes op b1 0 := decodeBytes_congr (by rw [k]; rfl)
    simp [decode, k, Mode.operandBytes, unread]
  | abs | abx | aby | ind => simp [decode, k, Mode.operandBytes]

/-- Whatever decodes stands in the opcode byte and the operand bytes that its mode consumes. -/
theorem exists_bytes_of_decode {bs rest : List Byte} {i : Instr} (h : decode bs = .ok (i, rest)) :
    ∃ op b1 b2, i = decodeBytes op b1 b2 ∧ bs = op :: ([b1, b2].take (opTable op).2.operandBytes ++ rest) := by
  unfold decode at h
  split at h
  · cases h
  · next op tail =>
    split at h
    · next consumed => cases h; exact ⟨op, 0, 0, rfl, by simp [consumed]⟩
    · next b1 _ consumed => cases h; exact ⟨op, b1, 0, rfl, by simp [consumed]⟩
    · next b1 b2 _ consumed => cases h; exact ⟨op, b1, b2, rfl, by simp [consumed]⟩
    · cases h

/-- What decodes, said once: bytes decode to `i` exactly when they begin with its encoding (R57, R66, R67). -/
theorem decode_ok_iff {bs rest : List Byte} {i : Instr} :
    decode bs = .ok (i, rest) ↔ ∃ used, encode i = some used ∧ bs = used ++ rest := by
  constructor
  · intro h
    obtain ⟨op, b1, b2, rfl, rfl⟩ := exists_bytes_of_decode h
    refine ⟨op :: (decodeBytes op b1 b2).operand.bytes,
      encode_eq_some_iff.mpr ⟨op, opcodeByte_decodeBytes op b1 b2, rfl⟩, ?_⟩
    rw [decodeBytes_operand, bytes_operand, List.cons_append]
  · rintro ⟨used, encoding, rfl⟩
    obtain ⟨op, encoded, rfl⟩ := encode_eq_some_iff.mp encoding
    obtain ⟨b1, b2, reads⟩ := exists_operand_bytes i.operand
    have consumed : i.operand.bytes = [b1, b2].take (opTable op).2.operandBytes := by
      rw [reads, bytes_operand, opTable_of_opcodeByte encoded]
    rw [List.cons_append, consumed, decode_take_append, decodeBytes_of_opcodeByte encoded reads]

/-- The encoding of an instruction has its length (R57). -/
theorem length_of_encode {i : Instr} {bs : List Byte} (h : encode i = some bs) : bs.length = i.length := by
  obtain ⟨op, -, rfl⟩ := encode_eq_some_iff.mp h
  rw [List.length_cons, length_bytes, Instr.length, Nat.add_comm]

/-- Settles O1: a well-formed instruction has an encoding, and what begins with it decodes to the instruction. -/
theorem decodeOfEncodeIsTheInstruction : Obligations.DecodeOfEncodeIsTheInstruction := by
  intro i rest wf
  obtain ⟨bs, encoding⟩ := Option.isSome_iff_exists.mp ((Machine.wellFormed_iff_encode i).mp wf)
  exact ⟨bs, encoding, length_of_encode encoding, decode_ok_iff.mpr ⟨bs, encoding, rfl⟩⟩

/-- Settles O2: what decodes begins with an encoding, which only a well-formed instruction has. -/
theorem decodedBytesAreTheEncoding : Obligations.DecodedBytesAreTheEncoding := by
  intro bs rest i h
  obtain ⟨used, encoding, begins⟩ := decode_ok_iff.mp h
  exact ⟨(Machine.wellFormed_iff_encode i).mpr (Option.isSome_of_eq_some encoding), used, encoding, begins⟩

/-! #### Every opcode byte -/

/-- R65 lists its 105 bytes once each. -/
theorem illegalOpcodes_nodup : illegalOpcodes.Nodup := by decide

/-- An illegal opcode decodes to the no-op that carries it (R65, R66). -/
theorem decodeBytes_of_illegal {op : Byte} (h : op ∈ illegalOpcodes) (b1 b2 : Byte) :
    decodeBytes op b1 b2 = .xxx op := by
  rw [decodeBytes, opTable_of_illegal op h]
  rfl

/-- Every other opcode has a documented mnemonic in the grid (R64). -/
theorem opTable_mnemonic_ne_xxx {op : Byte} (h : op ∉ illegalOpcodes) : (opTable op).1 ≠ .xxx := by
  intro undocumented
  have listed := opTable_listed op
  rw [if_pos undocumented] at listed
  exact h listed

/-- Settles O3: two bytes after the opcode are enough for every mode; the grid says which mnemonic it is. -/
theorem everyOpcodeByteDecodes : Obligations.EveryOpcodeByteDecodes := by
  refine ⟨⟨rfl, illegalOpcodes_nodup⟩, fun op b1 b2 tail => ?_⟩
  have decoded := decode_take_append op b1 b2 ([b1, b2].drop (opTable op).2.operandBytes ++ tail)
  rw [← List.append_assoc, List.take_append_drop] at decoded
  refine ⟨_, _, decoded, opcodeByte_decodeBytes op b1 b2, fun illegal => decodeBytes_of_illegal illegal b1 b2,
    fun documented => ?_⟩
  rw [decodeBytes_mnemonic]
  exact opTable_mnemonic_ne_xxx documented

/-- Settles O4, by evaluation of the thirteen words. -/
theorem sampleWordsDecode : Obligations.SampleWordsDecode :=
  ⟨rfl, rfl, rfl, rfl, rfl, rfl, rfl, rfl, rfl, rfl, rfl, rfl, rfl⟩

namespace Machine

/-- Settles O7: a dispatch completes exactly when there is an opcode byte, which exactly the well-formed terms have. -/
theorem everyInstructionCompletes : Obligations.EveryInstructionCompletes := by
  intro i s
  constructor
  · intro wf
    obtain ⟨op, -, completes⟩ := exec_wellFormed wf s
    exact ⟨_, completes⟩
  · intro illFormed
    have unencoded : i.opcodeByte = none :=
      Option.eq_none_iff_forall_ne_some.mpr fun _ encoded => illFormed (wellFormed_of_opcodeByte encoded)
    exact exec_none unencoded s

end Machine
end Sys2Proof

/-! ### What the addressing modes compute (40_addressing.md R71 to R86) -/

namespace Sys2Proof.Machine

/-! #### Addresses as numbers (R8, R38) -/

/-- An index is added to a 16-bit base mod 2^16 (D4). -/
theorem add_zext16_toNat (base : Addr) (v : Byte) :
    (base + zext16 v).toNat = (base.toNat + v.toNat) % 65536 := by
  rw [BitVec.toNat_add, zext16_toNat]

/-- A sum of bytes stays in page 0 (R38). -/
theorem zext16_add_toNat (p q : Byte) : (zext16 (p + q)).toNat = (p.toNat + q.toNat) % 256 := by
  rw [zext16_toNat, BitVec.toNat_add]

theorem byte_add_one_toNat (p : Byte) : (p + 1).toNat = (p.toNat + 1) % 256 := BitVec.toNat_add p 1

/-- A displacement is taken as a signed number (R62). -/
theorem sext16_toNat (r : Byte) : ((sext16 r).toNat : Int) = r.toInt % 65536 := by
  have inRange : 0 ≤ r.toInt % 65536 := Int.emod_nonneg _ (by decide)
  rw [sext16, BitVec.signExtend, BitVec.toNat_ofInt]
  exact Int.toNat_of_nonneg inRange

/-- A word in memory is little-endian (R42). -/
theorem readWord_toNat (s : State) (lo hi : Addr) :
    (s.readWord lo hi).toNat = (s.mem.read hi.toNat).toNat * 256 + (s.mem.read lo.toNat).toNat :=
  word_toNat _ _

/-- Pages are compared as numbers (R12). -/
theorem hiByte_bne (w u : Addr) : (hiByte w != hiByte u) = decide (w.toNat / 256 ≠ u.toNat / 256) := by
  apply Bool.eq_iff_iff.mpr
  simp [← BitVec.toNat_inj, hiByte_toNat]

/-- The sum of a base and an index leaves the page of the base exactly when its number does (R83). -/
theorem hiByte_add_zext16_bne (base : Addr) (v : Byte) : (hiByte (base + zext16 v) != hiByte base) =
    decide ((base.toNat + v.toNat) % 65536 / 256 ≠ base.toNat / 256) := by
  rw [hiByte_bne, add_zext16_toNat]

/-- The address after `p` in the page of `p` (R80). -/
theorem nextInPage_toNat (p : Addr) : (word (hiByte p) (loByte p + 1)).toNat =
    if p.toNat % 256 = 255 then p.toNat - 255 else p.toNat + 1 := by
  rw [word_toNat, hiByte_toNat, byte_add_one_toNat, loByte_toNat]
  split <;> omega

/-- Both bytes of a zero-page pointer come from page 0 (R81, R82, D5). -/
theorem zeroPageWord_toNat (s : State) (p : Byte) : (zeroPageWord s p).toNat =
    (s.mem.read ((p.toNat + 1) % 256)).toNat * 256 + (s.mem.read p.toNat).toNat := by
  rw [zeroPageWord, readWord_toNat, zext16_toNat, zext16_toNat, byte_add_one_toNat]

/-- A mode moves PC past its operand bytes mod 2^16 (R19, R57). -/
theorem resolve_pc_toNat (m : Operand) (s : State) :
    (resolve m s).pc.toNat = (s.pc.toNat + m.mode.operandBytes) % 65536 := by
  rw [resolve_pc, BitVec.toNat_add, BitVec.toNat_ofNat, Nat.add_mod_mod]

/-! #### The modes -/

/-- Settles O30: the three modes index a base alike, and R83 compares the pages of that sum. -/
theorem indexedAddressesAndCrossing : Obligations.IndexedAddressesAndCrossing := by
  intro s a p
  simp only [resolve_addressAbs]
  exact ⟨add_zext16_toNat a s.x, add_zext16_toNat a s.y, add_zext16_toNat (zeroPageWord s p) s.y,
    hiByte_add_zext16_bne a s.x, hiByte_add_zext16_bne a s.y, hiByte_add_zext16_bne (zeroPageWord s p) s.y,
    resolve_pc_toNat _ s, resolve_pc_toNat _ s, resolve_pc_toNat _ s⟩

/-- Settles O26, mode by mode: the operand bytes follow the opcode, and the prologue leaves X for the pointer of IZX. -/
theorem modeReadsFollowTheTable : Obligations.ModeReadsFollowTheTable := by
  intro m op s
  cases m with
  | imp | imm => rfl -- no operand byte read by the mode
  | rel | zp0 | zpx | zpy => rfl -- one
  | abs | abx | aby => rfl -- two
  | ind | izx | izy => rfl -- operand bytes, then two pointer bytes

/-- Settles O29, by the sums of bytes and the move of PC. -/
theorem zeroPageAndAbsoluteAddresses : Obligations.ZeroPageAndAbsoluteAddresses := by
  intro s z a
  simp only [resolve_addressAbs]
  refine ⟨zext16_toNat z, zext16_add_toNat z s.x, zext16_add_toNat z s.y, rfl, ?_, resolve_pc_toNat _ s, rfl⟩
  simp only [List.forall_mem_cons]
  exact ⟨⟨resolve_pc_toNat _ s, rfl⟩, ⟨resolve_pc_toNat _ s, rfl⟩, ⟨resolve_pc_toNat _ s, rfl⟩, List.forall_mem_nil _⟩

/-- Settles O31: the high byte is read at the next address in the pointer's page. -/
theorem indirectReproducesThePageWrapDefect : Obligations.IndirectReproducesThePageWrapDefect := by
  intro s p
  refine ⟨?_, resolve_pc_toNat _ s, rfl⟩
  rw [resolve_addressAbs, effectiveAddress, indirectTarget, readWord_toNat, nextInPage_toNat]

/-- Settles O32: the pointer of IZX is a sum of bytes, and the word at a pointer lies in page 0. -/
theorem zeroPagePointersStayInPageZero : Obligations.ZeroPagePointersStayInPageZero := by
  intro s p
  refine ⟨?_, resolve_pc_toNat _ s, rfl, zeroPageWord_toNat s p⟩
  rw [resolve_addressAbs, effectiveAddress, zeroPageWord_toNat, BitVec.toNat_add, Nat.mod_add_mod]

/-- The immediate of the instruction at PC is the byte after the opcode (R57, R59). -/
theorem fetchInstr_operand_imm {s : State} {v : Byte} (h : (fetchInstr s).operand = .imm v) :
    v = s.read (s.pc + 1) :=
  operand_eq_imm ((fetchInstr_operand s).symm.trans h)

/-- Settles O33: the mode's own results, and the immediate byte as memory holds it. -/
theorem immediateAndRelativeOperands : Obligations.ImmediateAndRelativeOperands := by
  constructor
  · intro s b
    exact ⟨resolve_addressAbs s (.imm b), resolve_pc_toNat _ s, rfl, rfl, rfl, sext16_toNat b,
      resolve_pc_toNat _ s, rfl⟩
  · intro s op b immediate
    rw [fetch_fetched, ruleState_addressAbs_imm]
    exact fetchInstr_operand_imm immediate

end Sys2Proof.Machine

/-! ### The ALU (41_alu.md R87 to R97) -/

namespace Sys2Proof.Machine

/-! #### Bytes as numbers -/

/-- Bit 7 of a byte says whether its number is 128 or more (R8). -/
theorem getLsbD_seven (v : Byte) : v.getLsbD 7 = decide (128 ≤ v.toNat) :=
  (BitVec.msb_eq_getLsbD_last v).symm.trans (BitVec.msb_eq_decide v)

/-- A byte is 0 exactly when its number is. -/
theorem byte_beq_zero (v : Byte) : (v == 0) = decide (v.toNat = 0) := by
  apply Bool.eq_iff_iff.mpr
  simp [← BitVec.toNat_inj]

/-- `M ^ 0xFF` is the one's complement of M (R90). -/
theorem xor_ones_toNat (v : Byte) : (v ^^^ 0xFF).toNat = 255 - v.toNat := by
  rw [show (0xFF : Byte) = BitVec.allOnes 8 from rfl, BitVec.xor_allOnes, BitVec.toNat_not]

/-- A signed byte as its unsigned number (R8). -/
theorem byte_toInt (v : Byte) : v.toInt = if 128 ≤ v.toNat then (v.toNat : Int) - 256 else v.toNat := by
  rw [BitVec.toInt_eq_toNat_cond]
  split <;> split <;> omega

/-- The one's complement of a signed byte M is -M - 1 (R90). -/
theorem xor_ones_toInt (v : Byte) : (v ^^^ 0xFF).toInt = -v.toInt - 1 := by
  have := v.isLt
  rw [byte_toInt, byte_toInt, xor_ones_toNat]
  split <;> split <;> omega

/-! #### ADC and SBC (R89, R90) -/

/-- `t` is `s` after `A <- A + w + C` (R89): the result, C, Z, V and N from the sum, and nothing else. -/
def AddsToA (w : Byte) (s t : State) : Prop :=
  let sum := s.a.toNat + w.toNat + (s.flag .c).toNat
  t.a.toNat = sum % 256 ∧ t.flag .c = decide (255 < sum) ∧ t.flag .z = decide (sum % 256 = 0) ∧
    t.flag .v = (~~~(s.a ^^^ w) &&& (s.a ^^^ t.a)).getLsbD 7 ∧ t.flag .n = sum.testBit 7 ∧
    t.x = s.x ∧ t.y = s.y ∧ t.sp = s.sp ∧ FlagsKeptExcept [.n, .v, .z, .c] s t ∧ MemoryKept s t

theorem adcResult_toNat (a w sr : Byte) : (adcResult a w sr).toNat = adcSum a w sr % 256 :=
  BitVec.toNat_ofNat _ _

theorem adcResult_getLsbD_seven (a w sr : Byte) : (adcResult a w sr).getLsbD 7 = (adcSum a w sr).testBit 7 := by
  rw [adcResult, BitVec.getLsbD_ofNat, decide_eq_true (by decide : 7 < 8), Bool.true_and]

/-- The forced U bit does not enter the sum (R22, R89). -/
theorem adcSum_setFlag_u (a w sr : Byte) (b : Bool) : adcSum a w (setFlag .u b sr) = adcSum a w sr := by
  rw [adcSum, adcSum, carryIn, carryIn, getFlag_setFlag_ne (by decide)]

/-- A dispatch whose rule adds `w` to A: the sum of R89 as a number, and the frame. -/
theorem addsToA_of_rule {i : Instr} {w : Byte} {s t : State} (e : exec i s = .next t)
    (row : flagsWritten i.mnemonic = [.n, .v, .z, .c])
    (rule : ∀ op, ruleOf i (ruleState op i.operand s) = addToA w (fetch i.operand (ruleState op i.operand s))) :
    AddsToA w s t := by
  obtain ⟨op, -, answer⟩ := exec_next_iff.mp e
  rw [rule] at answer
  have sum : adcSum s.a w (setFlag .u true s.sr) = s.a.toNat + w.toNat + (s.flag .c).toNat :=
    adcSum_setFlag_u s.a w s.sr true
  have result : t.a = adcResult s.a w (setFlag .u true s.sr) := by simp [answer]
  have flags (f : Flag) (hu : f ≠ .u) : t.flag f = getFlag f (adcFlags s.a w (setFlag .u true s.sr)) := by
    rw [answer, epilogue_flag_kept hu, state_flag_eq, addToA_sr, fetch_a, fetch_sr, ruleState_a, ruleState_sr]
  refine ⟨?_, ?_, ?_, ?_, ?_, by simp [answer], by simp [answer], by simp [answer],
    row ▸ onlyListedFlagsChange i s t e, read_of_mem_eq (by simp [answer])⟩
  · rw [result, adcResult_toNat, sum]
  · simp only [flags .c (by decide), getFlag_adcFlags, sum, gt_iff_lt]
  · simp only [flags .z (by decide), getFlag_adcFlags, byte_beq_zero, adcResult_toNat, sum]
  · simp only [flags .v (by decide), getFlag_adcFlags, result]
  · simp only [flags .n (by decide), getFlag_adcFlags, adcResult_getLsbD_seven, sum]

theorem exec_adc_addsToA {m : Operand} {s t : State} (e : exec (.adc m) s = .next t) :
    AddsToA (operandOf m s) s t :=
  addsToA_of_rule e rfl fun op => by rw [← fetch_ruleState op m s]; rfl

theorem exec_sbc_addsToA {m : Operand} {s t : State} (e : exec (.sbc m) s = .next t) :
    AddsToA (operandOf m s ^^^ 0xFF) s t :=
  addsToA_of_rule e rfl fun op => by rw [← fetch_ruleState op m s]; rfl

/-- A well-formed instruction answers a next state (O7). -/
theorem exec_completes {i : Instr} (wf : i.WellFormed) (s : State) : ∃ t, exec i s = .next t :=
  (everyInstructionCompletes i s).1 wf

/-- Settles O34: the rule of ADC adds the operand. -/
theorem adcAddsWithCarry : Obligations.AdcAddsWithCarry := by
  intro m s wf
  obtain ⟨t, e⟩ := exec_completes wf s
  exact ⟨t, e, exec_adc_addsToA e⟩

/-- Settles O35: the rule of SBC adds the operand's complement. -/
theorem sbcAddsTheComplement : Obligations.SbcAddsTheComplement := by
  intro m s wf
  obtain ⟨t, e⟩ := exec_completes wf s
  exact ⟨t, e, exec_sbc_addsToA e⟩

/-- The bit formula of V says that the signed sum does not fit: A and `w` have one sign and the result the other (R87,
R89). -/
theorem overflow_of_addsToA {w : Byte} {s t : State} (h : AddsToA w s t) :
    t.flag .v = decide (s.a.toInt + w.toInt + (s.flag .c).toNat < -128 ∨
      127 < s.a.toInt + w.toInt + (s.flag .c).toNat) := by
  obtain ⟨result, -, -, overflow, -⟩ := h
  have ha := s.a.isLt
  have hw := w.isLt
  have hc := Bool.toNat_le (s.flag .c)
  rw [overflow, BitVec.getLsbD_and, BitVec.getLsbD_not, BitVec.getLsbD_xor, BitVec.getLsbD_xor, getLsbD_seven,
    getLsbD_seven, getLsbD_seven, result, byte_toInt, byte_toInt, Bool.eq_iff_iff]
  -- With unlike signs the sum always fits; with like signs it fits exactly when the result keeps that sign.
  by_cases negA : 128 ≤ s.a.toNat <;> by_cases negW : 128 ≤ w.toNat <;> simp [negA, negW] <;> omega

/-- Settles O36: V by the signs, and the complement of M is 255 - M unsigned and -M - 1 signed. -/
theorem overflowAndBorrowAreArithmetic : Obligations.OverflowAndBorrowAreArithmetic := by
  intro m s
  refine ⟨fun t e => overflow_of_addsToA (exec_adc_addsToA e), fun t e => ?_⟩
  have adds := exec_sbc_addsToA e
  have hm := (operandOf m s).isLt
  have overflow := overflow_of_addsToA adds
  obtain ⟨result, carry, -⟩ := adds
  rw [xor_ones_toNat] at result carry
  rw [xor_ones_toInt] at overflow
  refine ⟨?_, ?_, ?_⟩
  · rw [overflow, decide_eq_decide]
    omega
  · omega
  · rw [carry, decide_eq_decide]
    omega

/-- Settles O37: A + M, then 255 - M and the carry, come to A + 256. -/
theorem sbcUndoesAdc : Obligations.SbcUndoesAdc := by
  intro v s carryClear
  obtain ⟨t, adc⟩ := exec_completes (i := .adc (.imm v)) rfl s
  obtain ⟨u, sbc⟩ := exec_completes (i := .sbc (.imm v)) rfl (t.setFlag .c true)
  refine ⟨t, u, adc, sbc, BitVec.eq_of_toNat_eq ?_⟩
  obtain ⟨sum, -⟩ := exec_adc_addsToA adc
  obtain ⟨difference, -⟩ := exec_sbc_addsToA sbc
  have carrySet : (t.setFlag .c true).flag .c = true := getFlag_setFlag_same .c true t.sr
  have hv := v.isLt
  have ha := s.a.isLt
  rw [carryClear] at sum
  rw [xor_ones_toNat, carrySet, state_setFlag_a] at difference
  simp only [operandOf, Bool.toNat_false, Bool.toNat_true] at sum difference
  omega

/-! #### AND, ORA, EOR (R91 to R93) -/

/-- A dispatch of a well-formed instruction whose rule puts `f A M` into A and takes Z and N from it. -/
theorem logic_completes {i : Instr} {f : Byte → Byte → Byte} (wf : i.WellFormed)
    (rule : ∀ q, ruleOf i q = setA (f (fetch i.operand q).a (fetch i.operand q).fetched) (fetch i.operand q))
    (s : State) : ∃ t, exec i s = .next t ∧ t.a = f s.a (operandOf i.operand s) ∧ ZNFrom t.a t ∧
      t.x = s.x ∧ t.y = s.y ∧ t.sp = s.sp ∧ FlagsKeptExcept (flagsWritten i.mnemonic) s t ∧ MemoryKept s t := by
  obtain ⟨t, e⟩ := exec_completes wf s
  obtain ⟨op, -, answer⟩ := exec_next_iff.mp e
  rw [rule, fetch_ruleState, fetch_a, ruleState_a] at answer
  refine ⟨t, e, by simp [answer], ⟨?_, ?_⟩, by simp [answer], by simp [answer], by simp [answer],
    onlyListedFlagsChange i s t e, read_of_mem_eq (by simp [answer])⟩
  · simp [answer, state_flag_eq, getFlag_setZN]
  · simp [answer, state_flag_eq, getFlag_setZN]

/-- Settles O38: the three rules are one, with the bitwise operation as its parameter. -/
theorem logicOperatesBitwiseOnA : Obligations.LogicOperatesBitwiseOnA := by
  intro m s
  exact ⟨fun wf => logic_completes (f := (· &&& ·)) wf (fun _ => rfl) s,
    fun wf => logic_completes (f := (· ||| ·)) wf (fun _ => rfl) s,
    fun wf => logic_completes (f := (· ^^^ ·)) wf (fun _ => rfl) s⟩

/-! #### CMP, CPX, CPY (R94 to R96) -/

/-- The flags of a compare as integers (R94). -/
theorem compared_of_flags {r m sr : Byte} {t : State}
    (flags : ∀ f, f ≠ .u → t.flag f = getFlag f (compareFlags r m sr)) : Compared r m t := by
  refine ⟨?_, ?_, ?_⟩
  · rw [flags .c (by decide), getFlag_compareFlags]
  · rw [flags .z (by decide), getFlag_compareFlags, Bool.eq_iff_iff]
    simp [← BitVec.toNat_inj]
  · rw [flags .n (by decide), getFlag_compareFlags, getLsbD_seven, BitVec.toNat_sub, decide_eq_decide]
    omega

/-- A dispatch of a well-formed instruction whose rule compares the register `reg` with M. -/
theorem compare_completes {i : Instr} {reg : State → Byte} (wf : i.WellFormed)
    (rule : ∀ q, ruleOf i q = compareWith (reg q) (fetch i.operand q)) (s : State)
    (entry : ∀ op, reg (ruleState op i.operand s) = reg s) :
    ∃ t, exec i s = .next t ∧ Compared (reg s) (operandOf i.operand s) t ∧
      RegistersKept s t ∧ FlagsKeptExcept (flagsWritten i.mnemonic) s t ∧ MemoryKept s t := by
  obtain ⟨t, e⟩ := exec_completes wf s
  obtain ⟨op, -, answer⟩ := exec_next_iff.mp e
  rw [rule, entry] at answer
  refine ⟨t, e, compared_of_flags (sr := setFlag .u true s.sr) fun f hu => ?_, by simp [RegistersKept, answer],
    onlyListedFlagsChange i s t e, read_of_mem_eq (by simp [answer])⟩
  rw [answer, epilogue_flag_kept hu, state_flag_eq, compareWith_sr, fetch_ruleState, fetch_sr, ruleState_sr]

/-- Settles O39: the three rules are one, with the register as its parameter. -/
theorem comparesSetCarryZeroNegative : Obligations.ComparesSetCarryZeroNegative := by
  intro m s
  exact ⟨fun wf => compare_completes wf (fun _ => rfl) s (ruleState_a · m s),
    fun wf => compare_completes wf (fun _ => rfl) s (ruleState_x · m s),
    fun wf => compare_completes wf (fun _ => rfl) s (ruleState_y · m s)⟩

/-! #### BIT (R97) -/

/-- Settles O40, flag by flag: Z from A & M, N and V from M itself. -/
theorem bitTestsMemoryBits : Obligations.BitTestsMemoryBits := by
  intro m s wf
  obtain ⟨t, e⟩ := exec_completes wf s
  obtain ⟨op, -, answer⟩ := exec_next_iff.mp e
  have flags (f : Flag) (hu : f ≠ .u) :
      t.flag f = getFlag f (bitFlags s.a (operandOf m s) (setFlag .u true s.sr)) := by
    rw [answer, epilogue_flag_kept hu, state_flag_eq, ruleOf, Instr.operand, ruleBit_sr, fetch_ruleState, fetch_a,
      fetch_sr, ruleState_a, ruleState_sr]
  refine ⟨t, e, ?_, ?_, ?_, by simp [RegistersKept, answer, ruleOf], onlyListedFlagsChange _ s t e,
    formsThatStoreNothingKeepMemory _ s t e rfl⟩
  · rw [flags .z (by decide), getFlag_bitFlags, beq_eq_decide]
  · rw [flags .n (by decide), getFlag_bitFlags]
  · rw [flags .v (by decide), getFlag_bitFlags]

end Sys2Proof.Machine

/-! ### Shifts and counts (42_shift_incdec.md R98 to R107) -/

namespace Sys2Proof.Machine

/-! #### Results as numbers -/

/-- Bit 0 of a byte says whether its number is odd (R8). -/
theorem getLsbD_zero (v : Byte) : v.getLsbD 0 = decide (v.toNat % 2 = 1) :=
  Nat.testBit_zero v.toNat

/-- `(M << 1) | c0` as a number: the vacated bit 0 takes `c0` (R98, R100). -/
theorem shiftLeft_eq_ofNat (c0 : Bool) (v : Byte) : shiftLeft c0 v = BitVec.ofNat 8 (2 * v.toNat + c0.toNat) := by
  have entering : c0.toNat < 2 ^ 1 := Bool.toNat_lt c0
  apply BitVec.eq_of_toNat_eq
  simp only [shiftLeft, BitVec.toNat_or, BitVec.toNat_shiftLeft, BitVec.toNat_setWidth, BitVec.toNat_ofBool,
    BitVec.toNat_ofNat]
  rw [← Nat.or_mod_two_pow, ← Nat.shiftLeft_add_eq_or_of_lt entering, Nat.shiftLeft_eq, Nat.mul_comm]

/-- `(c0 << 7) | (M >> 1)` as a number: the vacated bit 7 takes `c0` (R99, R101). -/
theorem shiftRight_eq_ofNat (c0 : Bool) (v : Byte) :
    shiftRight c0 v = BitVec.ofNat 8 (128 * c0.toNat + v.toNat / 2) := by
  have entering := Bool.toNat_lt c0
  have half : v.toNat / 2 < 2 ^ 7 := by have := v.isLt; omega
  have top : (c0.toNat % 2 ^ 8) <<< 7 % 2 ^ 8 = c0.toNat <<< 7 := by rw [Nat.shiftLeft_eq]; omega
  apply BitVec.eq_of_toNat_eq
  simp only [shiftRight, BitVec.toNat_or, BitVec.toNat_shiftLeft, BitVec.toNat_ushiftRight, BitVec.toNat_setWidth,
    BitVec.toNat_ofBool, BitVec.toNat_ofNat]
  rw [top, Nat.shiftRight_eq_div_pow, Nat.pow_one, ← Nat.shiftLeft_add_eq_or_of_lt half, Nat.shiftLeft_eq]
  omega

/-- One more mod 2^8 (R102). -/
theorem byte_add_one_eq_ofNat (v : Byte) : v + 1 = BitVec.ofNat 8 (v.toNat + 1) :=
  BitVec.eq_of_toNat_eq ((byte_add_one_toNat v).trans (BitVec.toNat_ofNat _ 8).symm)

/-- One less mod 2^8 (R103, R105, R107). -/
theorem byte_sub_one_toNat (v : Byte) : (v - 1).toNat = (v.toNat + 255) % 256 := by
  rw [BitVec.toNat_sub, Nat.add_comm]
  rfl

theorem byte_sub_one_eq_ofNat (v : Byte) : v - 1 = BitVec.ofNat 8 (v.toNat + 255) :=
  BitVec.eq_of_toNat_eq ((byte_sub_one_toNat v).trans (BitVec.toNat_ofNat _ 8).symm)

/-! #### What the shared ends of the rules leave -/

/-- A read-modify-write instruction has no immediate form (R54), so its address is the effective address on entry. -/
theorem mode_ne_imm_of_isRmw {i : Instr} (wf : i.WellFormed) (rmw : isRmw i.mnemonic = true) :
    i.operand.mode ≠ .imm := by
  refine mode_ne_of_wellFormed wf ?_
  cases hn : i.mnemonic with
  | asl | lsr | rol | ror | inc | dec => decide
  | _ => rw [hn] at rmw; cases rmw

/-- One byte is stored when every read gives the new byte at its address and the old one elsewhere (R36). -/
theorem oneByteStored_of_read {w : Addr} {v : Byte} {s t : State}
    (h : ∀ u, t.read u = if w = u then v else s.read u) : OneByteStored w v s t :=
  ⟨by rw [h, if_pos rfl], fun u other => by rw [h, if_neg other.symm]⟩

/-- `SetZN` shows in Z and N after the epilogue, which forces U only (R27, R68). -/
theorem znFrom_epilogue {v sr : Byte} {q : State} (h : q.sr = setZN v sr) (n : Nat) : ZNFrom v (epilogue n q) := by
  constructor
  · rw [epilogue_flag_kept (by decide), state_flag_eq, h, getFlag_setZN]
  · rw [epilogue_flag_kept (by decide), state_flag_eq, h, getFlag_setZN]

/-- A flag at the rule is the flag on entry, U apart, which the prologue forces (R68). -/
theorem fetch_ruleState_flag {f : Flag} (hu : f ≠ .u) (op : Byte) (m : Operand) (s : State) :
    (fetch m (ruleState op m s)).flag f = s.flag f := by
  rw [← ruleState_flag_kept hu op m s, state_flag_eq, state_flag_eq, fetch_sr]

/-- The accumulator form is the one form in mode IMP. -/
theorem mode_eq_imp_iff {m : Operand} : m.mode = .imp ↔ m = .imp := by
  cases m <;> simp [Operand.mode]

/-- A memory form of a shift or rotate stores its result at `addressAbs` (R85). -/
theorem shiftEnd_read_of_mode_ne_imp {m : Operand} (h : m.mode ≠ .imp) (out : Bool) (r : Byte) (s : State)
    (u : Addr) : (shiftEnd m out r s).read u = if s.addressAbs = u then r else s.read u := by
  cases m with
  | imp => exact absurd rfl h
  | _ => exact state_read_write { s with sr := shiftFlags out r s.sr } s.addressAbs u r

/-- The end of a shift or rotate leaves what WriteBack leaves (R85). -/
theorem shiftEnd_writtenBack {m : Operand} (noImm : m.mode ≠ .imm) (out : Bool) (r op : Byte) (n : Nat) (s : State) :
    WrittenBack m r s (epilogue n (shiftEnd m out r (fetch m (ruleState op m s)))) := by
  by_cases accumulator : m = .imp
  · subst accumulator
    exact ⟨rfl, fun _ => rfl⟩
  · have memoryForm : m.mode ≠ .imp := mt mode_eq_imp_iff.mp accumulator
    rw [WrittenBack, if_neg accumulator]
    refine ⟨?_, oneByteStored_of_read fun u => ?_⟩
    · rw [epilogue_a, shiftEnd_a_of_mode_ne_imp memoryForm, fetch_a, ruleState_a]
    · rw [epilogue_read, shiftEnd_read_of_mode_ne_imp memoryForm, fetch_addressAbs, ruleState_addressAbs op m s noImm,
        fetch_read, ruleState_read]

/-! #### ASL, LSR, ROL, ROR (R98 to R101) -/

/-- A dispatch of a well-formed instruction whose rule shifts `out` into C and writes `r` back. -/
theorem shift_completes {i : Instr} {out : Bool} {r : Byte} {s : State} (wf : i.WellFormed)
    (rmw : isRmw i.mnemonic = true)
    (rule : ∀ op, ruleOf i (ruleState op i.operand s) =
      shiftEnd i.operand out r (fetch i.operand (ruleState op i.operand s))) :
    ∃ t, exec i s = .next t ∧ WrittenBack i.operand r s t ∧ ZNFrom r t ∧ t.flag .c = out ∧
      t.x = s.x ∧ t.y = s.y ∧ t.sp = s.sp ∧ FlagsKeptExcept (flagsWritten i.mnemonic) s t := by
  obtain ⟨t, e⟩ := exec_completes wf s
  obtain ⟨op, -, answer⟩ := exec_next_iff.mp e
  rw [rule] at answer
  refine ⟨t, e, ?_, ?_, ?_, by simp [answer], by simp [answer], by simp [answer], onlyListedFlagsChange i s t e⟩
  · exact answer ▸ shiftEnd_writtenBack (mode_ne_imm_of_isRmw wf rmw) out r op _ s
  · exact answer ▸ znFrom_epilogue (shiftEnd_sr _ _ _ _) _
  · rw [answer, epilogue_flag_kept (by decide), state_flag_eq, shiftEnd_sr, getFlag_shiftFlags]

/-- Settles O41: both rules are one with no carry entering. -/
theorem shiftsMoveOneBit : Obligations.ShiftsMoveOneBit := by
  intro m s
  refine ⟨fun wf => shift_completes wf rfl fun op => ?_, fun wf => shift_completes wf rfl fun op => ?_⟩
  · rw [ruleOf, Instr.operand, ruleAsl, fetch_ruleState, shiftLeft_eq_ofNat, getLsbD_seven, Bool.toNat_false,
      Nat.add_zero]
  · rw [ruleOf, Instr.operand, ruleLsr, fetch_ruleState, shiftRight_eq_ofNat, getLsbD_zero, Bool.toNat_false,
      Nat.mul_zero, Nat.zero_add]

/-- Settles O42: both rules are one, and the carry that enters is that of the entry state. -/
theorem rotatesMoveOneBitThroughCarry : Obligations.RotatesMoveOneBitThroughCarry := by
  intro m s
  refine ⟨fun wf => shift_completes wf rfl fun op => ?_, fun wf => shift_completes wf rfl fun op => ?_⟩
  · rw [ruleOf, Instr.operand, ruleRol, fetch_ruleState, fetch_ruleState_flag (by decide), shiftLeft_eq_ofNat,
      getLsbD_seven]
  · rw [ruleOf, Instr.operand, ruleRor, fetch_ruleState, fetch_ruleState_flag (by decide), shiftRight_eq_ofNat,
      getLsbD_zero]

/-! #### INC, DEC (R102, R103) -/

/-- A dispatch of a well-formed instruction whose rule stores the count `r` at the effective address. -/
theorem count_completes {i : Instr} {r : Byte} {s : State} (wf : i.WellFormed) (rmw : isRmw i.mnemonic = true)
    (rule : ∀ op, ruleOf i (ruleState op i.operand s) =
      storeCount r (fetch i.operand (ruleState op i.operand s))) :
    ∃ t, exec i s = .next t ∧ OneByteStored (effectiveAddress i.operand s) r s t ∧ ZNFrom r t ∧
      RegistersKept s t ∧ FlagsKeptExcept (flagsWritten i.mnemonic) s t := by
  obtain ⟨t, e⟩ := exec_completes wf s
  obtain ⟨op, -, answer⟩ := exec_next_iff.mp e
  rw [rule] at answer
  refine ⟨t, e, oneByteStored_of_read fun u => ?_, ?_, by simp [RegistersKept, answer],
    onlyListedFlagsChange i s t e⟩
  · rw [answer, epilogue_read, storeCount, setZN_read, state_read_write, fetch_addressAbs,
      ruleState_addressAbs op i.operand s (mode_ne_imm_of_isRmw wf rmw), fetch_read, ruleState_read]
  · exact answer ▸ znFrom_epilogue (storeCount_sr _ _) _

/-- Settles O43: both rules are one, with the count as its parameter. -/
theorem incAndDecCountMemory : Obligations.IncAndDecCountMemory := by
  intro m s
  refine ⟨fun wf => count_completes wf rfl fun op => ?_, fun wf => count_completes wf rfl fun op => ?_⟩
  · rw [ruleOf, Instr.operand, fetch_ruleState, byte_add_one_eq_ofNat]
  · rw [ruleOf, Instr.operand, fetch_ruleState, byte_sub_one_eq_ofNat]

/-! #### INX, DEX, INY, DEY (R104 to R107) -/

/-- A dispatch of a well-formed instruction whose rule puts `v` into the register `reg` and takes Z and N from it. -/
theorem register_completes {i : Instr} {reg : State → Byte} {v : Byte} {s : State} (wf : i.WellFormed)
    (value : ∀ op, reg (ruleOf i (ruleState op i.operand s)) = v)
    (flags : ∀ op, (ruleOf i (ruleState op i.operand s)).sr = setZN v (ruleState op i.operand s).sr)
    (kept : ∀ q n, reg (epilogue n q) = reg q) : ∃ t, exec i s = .next t ∧ reg t = v ∧ ZNFrom (reg t) t := by
  obtain ⟨t, e⟩ := exec_completes wf s
  obtain ⟨op, -, answer⟩ := exec_next_iff.mp e
  have result : reg t = v := by rw [answer, kept, value]
  exact ⟨t, e, result, result ▸ answer ▸ znFrom_epilogue (flags op) _⟩

/-- Settles O44: each rule counts its register by one, and the frames of O15, O16 and O18 give the rest. -/
theorem indexRegistersCount : Obligations.IndexRegistersCount := by
  intro s
  refine ⟨?_, ?_, ?_, ?_⟩
  · obtain ⟨t, e, count, zn⟩ := register_completes (i := .inx) (v := s.x + 1) (s := s) rfl (fun _ => rfl)
      (fun _ => rfl) epilogue_x
    obtain ⟨a, -, y, sp⟩ := onlyListedRegistersChange _ s t e
    exact ⟨t, e, count ▸ byte_add_one_toNat s.x, zn, a rfl, y rfl, sp rfl, onlyListedFlagsChange _ s t e,
      formsThatStoreNothingKeepMemory _ s t e rfl⟩
  · obtain ⟨t, e, count, zn⟩ := register_completes (i := .dex) (v := s.x - 1) (s := s) rfl (fun _ => rfl)
      (fun _ => rfl) epilogue_x
    obtain ⟨a, -, y, sp⟩ := onlyListedRegistersChange _ s t e
    exact ⟨t, e, count ▸ byte_sub_one_toNat s.x, zn, a rfl, y rfl, sp rfl, onlyListedFlagsChange _ s t e,
      formsThatStoreNothingKeepMemory _ s t e rfl⟩
  · obtain ⟨t, e, count, zn⟩ := register_completes (i := .iny) (v := s.y + 1) (s := s) rfl (fun _ => rfl)
      (fun _ => rfl) epilogue_y
    obtain ⟨a, x, -, sp⟩ := onlyListedRegistersChange _ s t e
    exact ⟨t, e, count ▸ byte_add_one_toNat s.y, zn, a rfl, x rfl, sp rfl, onlyListedFlagsChange _ s t e,
      formsThatStoreNothingKeepMemory _ s t e rfl⟩
  · obtain ⟨t, e, count, zn⟩ := register_completes (i := .dey) (v := s.y - 1) (s := s) rfl (fun _ => rfl)
      (fun _ => rfl) epilogue_y
    obtain ⟨a, x, -, sp⟩ := onlyListedRegistersChange _ s t e
    exact ⟨t, e, count ▸ byte_sub_one_toNat s.y, zn, a rfl, x rfl, sp rfl, onlyListedFlagsChange _ s t e,
      formsThatStoreNothingKeepMemory _ s t e rfl⟩

end Sys2Proof.Machine

/-! ### Loads, stores and transfers (43_load_store_transfer.md R108 to R119) -/

namespace Sys2Proof.Machine

/-! #### Rules that end by setting one register -/

/-- A dispatch of a well-formed instruction whose rule ends in `set v`, where `set` is `setA`, `setX` or `setY`: Z and N
follow `v`, and the state answered shows what happens to the registers. -/
theorem setter_completes {i : Instr} {set : Byte → State → State} {v : Byte} {s : State} (wf : i.WellFormed)
    (rule : ∀ op, ruleOf i (ruleState op i.operand s) = set v (fetch i.operand (ruleState op i.operand s)))
    (flags : ∀ q, (set v q).sr = setZN v q.sr) (mem : ∀ q, (set v q).mem = q.mem) :
    ∃ op n, let t := epilogue n (set v (fetch i.operand (ruleState op i.operand s)))
      exec i s = .next t ∧ ZNFrom v t ∧ FlagsKeptExcept (flagsWritten i.mnemonic) s t ∧ MemoryKept s t := by
  obtain ⟨t, e⟩ := exec_completes wf s
  obtain ⟨op, -, answer⟩ := exec_next_iff.mp e
  rw [rule] at answer
  subst answer
  exact ⟨op, _, e, znFrom_epilogue (flags _) _, onlyListedFlagsChange i s _ e, read_of_mem_eq (by simp [mem])⟩

section Setters

variable {i : Instr} {v : Byte} {s : State} (wf : i.WellFormed)
include wf

/-- A rule that ends in `setA` changes A, Z and N only. -/
theorem setA_completes
    (rule : ∀ op, ruleOf i (ruleState op i.operand s) = setA v (fetch i.operand (ruleState op i.operand s))) :
    ∃ t, exec i s = .next t ∧ t.a = v ∧ ZNFrom v t ∧ t.x = s.x ∧ t.y = s.y ∧ t.sp = s.sp ∧
      FlagsKeptExcept (flagsWritten i.mnemonic) s t ∧ MemoryKept s t := by
  obtain ⟨op, n, e, zn, flags, mem⟩ := setter_completes wf rule (setA_sr · v) (setA_mem · v)
  exact ⟨_, e, rfl, zn, by simp, by simp, by simp, flags, mem⟩

/-- A rule that ends in `setX` changes X, Z and N only. -/
theorem setX_completes
    (rule : ∀ op, ruleOf i (ruleState op i.operand s) = setX v (fetch i.operand (ruleState op i.operand s))) :
    ∃ t, exec i s = .next t ∧ t.x = v ∧ ZNFrom v t ∧ t.a = s.a ∧ t.y = s.y ∧ t.sp = s.sp ∧
      FlagsKeptExcept (flagsWritten i.mnemonic) s t ∧ MemoryKept s t := by
  obtain ⟨op, n, e, zn, flags, mem⟩ := setter_completes wf rule (setX_sr · v) (setX_mem · v)
  exact ⟨_, e, rfl, zn, by simp, by simp, by simp, flags, mem⟩

/-- A rule that ends in `setY` changes Y, Z and N only. -/
theorem setY_completes
    (rule : ∀ op, ruleOf i (ruleState op i.operand s) = setY v (fetch i.operand (ruleState op i.operand s))) :
    ∃ t, exec i s = .next t ∧ t.y = v ∧ ZNFrom v t ∧ t.a = s.a ∧ t.x = s.x ∧ t.sp = s.sp ∧
      FlagsKeptExcept (flagsWritten i.mnemonic) s t ∧ MemoryKept s t := by
  obtain ⟨op, n, e, zn, flags, mem⟩ := setter_completes wf rule (setY_sr · v) (setY_mem · v)
  exact ⟨_, e, rfl, zn, by simp, by simp, by simp, flags, mem⟩

end Setters

/-- Settles O45: each rule sets its register to what `Fetch` leaves, which is M. -/
theorem loadsTakeTheOperand : Obligations.LoadsTakeTheOperand := by
  intro m s
  refine ⟨fun wf => ?_, fun wf => ?_, fun wf => ?_⟩
  · obtain ⟨t, e, value, zn, frame⟩ := setA_completes wf fun op => congrArg (setA · _) (fetch_ruleState op m s)
    exact ⟨t, e, value, value ▸ zn, frame⟩
  · obtain ⟨t, e, value, zn, frame⟩ := setX_completes wf fun op => congrArg (setX · _) (fetch_ruleState op m s)
    exact ⟨t, e, value, value ▸ zn, frame⟩
  · obtain ⟨t, e, value, zn, frame⟩ := setY_completes wf fun op => congrArg (setY · _) (fetch_ruleState op m s)
    exact ⟨t, e, value, value ▸ zn, frame⟩

/-- TXS copies X to SP and writes no flag (R119). -/
theorem txs_completes (s : State) : ∃ t, exec .txs s = .next t ∧ t.sp = s.x ∧ t.a = s.a ∧ t.x = s.x ∧
    t.y = s.y ∧ FlagsKeptExcept [] s t ∧ MemoryKept s t := by
  obtain ⟨t, e⟩ := exec_completes (i := .txs) rfl s
  obtain ⟨op, -, answer⟩ := exec_next_iff.mp e
  obtain ⟨a, x, y, -⟩ := onlyListedRegistersChange _ s t e
  exact ⟨t, e, by simp [answer, ruleOf], a rfl, x rfl, y rfl, onlyListedFlagsChange _ s t e,
    formsThatStoreNothingKeepMemory _ s t e rfl⟩

/-- Settles O47: each rule but that of TXS sets its destination to the source register, which the prologue and the mode
leave alone. -/
theorem transfersCopyOneRegister : Obligations.TransfersCopyOneRegister := by
  intro s
  exact ⟨setX_completes (i := .tax) rfl fun _ => rfl, setY_completes (i := .tay) rfl fun _ => rfl,
    setA_completes (i := .txa) rfl fun _ => rfl, setA_completes (i := .tya) rfl fun _ => rfl,
    setX_completes (i := .tsx) rfl fun _ => rfl, txs_completes s⟩

/-! #### STA, STX, STY (R111 to R113) -/

/-- A dispatch of a well-formed instruction whose rule stores the register `reg` at `addressAbs`, its only bus
access. -/
theorem store_completes {i : Instr} {reg : State → Byte} {s : State} (wf : i.WellFormed)
    (noImm : .imm ∉ i.mnemonic.modes) (rule : ∀ q, ruleOf i q = q.write q.addressAbs (reg q))
    (entry : ∀ op, reg (ruleState op i.operand s) = reg s)
    (access : ruleAccesses i s = [.write s.addressAbs (reg s)]) :
    ∃ t, exec i s = .next t ∧ OneByteStored (effectiveAddress i.operand s) (reg s) s t ∧ RegistersKept s t ∧
      FlagsKeptExcept (flagsWritten i.mnemonic) s t ∧ readAddrs (ruleAccesses i s) = [] := by
  obtain ⟨t, e⟩ := exec_completes wf s
  obtain ⟨op, -, answer⟩ := exec_next_iff.mp e
  rw [rule, entry, ruleState_addressAbs op i.operand s (mode_ne_of_wellFormed wf noImm)] at answer
  refine ⟨t, e, oneByteStored_of_read fun u => ?_, by simp [RegistersKept, answer],
    onlyListedFlagsChange i s t e, ?_⟩
  · rw [answer, epilogue_read, state_read_write, ruleState_read]
  · rw [access]; rfl

/-- Settles O46: the three rules are one, with the register as its parameter. -/
theorem storesWriteOneByte : Obligations.StoresWriteOneByte := by
  intro m s
  refine ⟨fun wf => ?_, fun wf => ?_, fun wf => ?_⟩
  · exact store_completes wf (by decide : .imm ∉ Mnemonic.sta.modes) (fun _ => rfl) (ruleState_a · m s) rfl
  · exact store_completes wf (by decide : .imm ∉ Mnemonic.stx.modes) (fun _ => rfl) (ruleState_x · m s) rfl
  · exact store_completes wf (by decide : .imm ∉ Mnemonic.sty.modes) (fun _ => rfl) (ruleState_y · m s) rfl

end Sys2Proof.Machine

/-! ### Stack instructions (44_stack.md R120 to R123) -/

namespace Sys2Proof.Machine

/-! #### PHA, PHP, PLA, PLP -/

/-- A dispatch of a well-formed instruction whose rule pushes `v` (R46). -/
theorem push_completes {i : Instr} {v : Byte} {s : State} (wf : i.WellFormed)
    (rule : ∀ op, ruleOf i (ruleState op i.operand s) = push v (ruleState op i.operand s)) :
    ∃ t, exec i s = .next t ∧ OneByteStored (stackAddr s.sp) v s t ∧ t.sp.toNat = (s.sp.toNat + 255) % 256 ∧
      t.a = s.a ∧ t.x = s.x ∧ t.y = s.y ∧ FlagsKeptExcept (flagsWritten i.mnemonic) s t := by
  obtain ⟨t, e⟩ := exec_completes wf s
  obtain ⟨op, -, answer⟩ := exec_next_iff.mp e
  rw [rule] at answer
  refine ⟨t, e, oneByteStored_of_read fun u => ?_, ?_, by simp [answer], by simp [answer], by simp [answer],
    onlyListedFlagsChange i s t e⟩
  · rw [answer, epilogue_read, push_read, ruleState_sp, ruleState_read]
  · rw [answer, epilogue_sp, push_sp, ruleState_sp, byte_sub_one_toNat]

/-- Settles O48: PHA pushes A as it is on entry. -/
theorem phaPushesTheAccumulator : Obligations.PhaPushesTheAccumulator := fun s =>
  push_completes (i := .pha) rfl fun op => by rw [ruleOf, ruleState_a]

/-- The pushed copy of SR does not show that the prologue forces U (R68, R121, R136). -/
theorem pushedStatus_setFlag_u (sr : Byte) : pushedStatus (setFlag .u true sr) = sr ||| 0x30 :=
  sr_ext fun f => by cases f <;> simp [getFlag, pushedStatus, setFlag, Flag.mask, Flag.bit]

/-- SR after a pull: B dropped by the rule, U forced by the epilogue (R68, R123, R137). -/
theorem setFlag_u_pulledStatus (v : Byte) : setFlag .u true (pulledStatus v) = (v &&& 0xCF) ||| 0x20 :=
  sr_ext fun f => by cases f <;> simp [getFlag, pulledStatus, setFlag, Flag.mask, Flag.bit]

theorem pull_ruleState_fst (op : Byte) (m : Operand) (s : State) :
    (pull (ruleState op m s)).1 = s.read (stackAddr (s.sp + 1)) := by
  rw [pull_fst, ruleState_sp, ruleState_read]

/-- PLA pulls A and takes Z and N from it (R122). -/
theorem pla_completes (s : State) : ∃ t, exec .pla s = .next t ∧ t.a = s.read (stackAddr (s.sp + 1)) ∧
    ZNFrom t.a t ∧ t.sp = s.sp + 1 ∧ t.x = s.x ∧ t.y = s.y ∧ FlagsKeptExcept [.n, .z] s t ∧ MemoryKept s t := by
  obtain ⟨t, e⟩ := exec_completes (i := .pla) rfl s
  obtain ⟨op, -, answer⟩ := exec_next_iff.mp e
  obtain ⟨-, x, y, -⟩ := onlyListedRegistersChange _ s t e
  rw [ruleOf, pull_ruleState_fst] at answer
  have value : t.a = s.read (stackAddr (s.sp + 1)) := by rw [answer, epilogue_a, setA_a]
  refine ⟨t, e, value, ?_, by simp [answer], x rfl, y rfl, onlyListedFlagsChange _ s t e,
    formsThatStoreNothingKeepMemory _ s t e rfl⟩
  exact value ▸ answer ▸ znFrom_epilogue (setA_sr _ _) _

/-- PLP pulls SR and nothing else (R123). -/
theorem plp_completes (s : State) : ∃ t, exec .plp s = .next t ∧
    t.sr = (s.read (stackAddr (s.sp + 1)) &&& 0xCF) ||| 0x20 ∧ t.sp = s.sp + 1 ∧ t.a = s.a ∧ t.x = s.x ∧
    t.y = s.y ∧ MemoryKept s t := by
  obtain ⟨t, e⟩ := exec_completes (i := .plp) rfl s
  obtain ⟨op, -, answer⟩ := exec_next_iff.mp e
  obtain ⟨a, x, y, -⟩ := onlyListedRegistersChange _ s t e
  rw [ruleOf, pull_ruleState_fst] at answer
  refine ⟨t, e, ?_, by simp [answer], a rfl, x rfl, y rfl, formsThatStoreNothingKeepMemory _ s t e rfl⟩
  rw [answer, epilogue_sr, state_setSr_sr, setFlag_u_pulledStatus]

/-- Settles O49: PHP is a push like PHA, of the status with B and U set. -/
theorem phpPlaPlpMoveStatusAndAccumulator : Obligations.PhpPlaPlpMoveStatusAndAccumulator := by
  intro s
  refine ⟨push_completes (i := .php) rfl fun op => ?_, ?_, ?_⟩
  · rw [ruleOf, ruleState_sr, pushedStatus_setFlag_u]
  · obtain ⟨t, e, value, zn, sp, frame⟩ := pla_completes s
    exact ⟨t, e, value, zn, sp ▸ byte_add_one_toNat s.sp, frame⟩
  · obtain ⟨t, e, status, sp, frame⟩ := plp_completes s
    exact ⟨t, e, status, sp ▸ byte_add_one_toNat s.sp, frame⟩

/-! #### What JSR, RTS, BRK and RTI do to PC, SP and the stack bytes (R134 to R137) -/

/-- JSR goes to its target and leaves the address of its own last byte pushed (R134). -/
theorem jsr_completes (a : Addr) (s : State) : ∃ t, exec (.jsr a) s = .next t ∧ t.pc = a ∧ t.sp = s.sp - 1 - 1 ∧
    ∀ u, t.read u = (pushWord (s.pc + 2) s).read u := by
  obtain ⟨t, e⟩ := exec_completes (i := .jsr a) rfl s
  obtain ⟨op, -, answer⟩ := exec_next_iff.mp e
  have lastByte : (ruleState op (.abs a) s).pc - 1 = s.pc + 2 := by
    rw [ruleState_pc, show BitVec.ofNat 16 (Operand.abs a).mode.operandBytes = 2 from rfl]
    bv_omega
  rw [ruleOf, Instr.operand, lastByte, ruleState_addressAbs op (.abs a) s nofun] at answer
  exact ⟨t, e, by simp [answer, effectiveAddress], by simp [answer], fun u => by simp [answer]⟩

/-- RTS goes to the address after the one it pulls (R135). -/
theorem rts_completes (s : State) :
    ∃ t, exec .rts s = .next t ∧ t.pc = (pullWord s).1 + 1 ∧ t.sp = s.sp + 1 + 1 := by
  obtain ⟨t, e⟩ := exec_completes (i := .rts) rfl s
  obtain ⟨op, -, answer⟩ := exec_next_iff.mp e
  exact ⟨t, e, by simp [answer, ruleOf, pullWord_fst], by simp [answer, ruleOf]⟩

/-- BRK leaves its address + 2 and then the status pushed (R136). -/
theorem brk_completes (s : State) : ∃ t, exec .brk s = .next t ∧ t.sp = s.sp - 1 - 1 - 1 ∧
    ∀ u, t.read u = (push (s.sr ||| 0x30) (pushWord (s.pc + 2) s)).read u := by
  obtain ⟨t, e⟩ := exec_completes (i := .brk) rfl s
  obtain ⟨op, -, answer⟩ := exec_next_iff.mp e
  have returnAddress : (ruleState op .imp s).pc + 1 = s.pc + 2 := by
    rw [ruleState_pc, show BitVec.ofNat 16 Operand.imp.mode.operandBytes = 0 from rfl]
    bv_omega
  rw [ruleOf, Instr.operand] at answer
  refine ⟨t, e, by simp [answer], fun u => ?_⟩
  rw [answer, epilogue_read, enterTrap_read, returnAddress, ruleState_sr, pushedStatus_setFlag_u]
  simp

/-- RTI pulls the status and then PC (R137). -/
theorem rti_completes (s : State) : ∃ t, exec .rti s = .next t ∧
    t.sr = (s.read (stackAddr (s.sp + 1)) &&& 0xCF) ||| 0x20 ∧
    t.pc = word (s.read (stackAddr (s.sp + 1 + 1 + 1))) (s.read (stackAddr (s.sp + 1 + 1))) ∧
    t.sp = s.sp + 1 + 1 + 1 := by
  obtain ⟨t, e⟩ := exec_completes (i := .rti) rfl s
  obtain ⟨op, -, answer⟩ := exec_next_iff.mp e
  rw [ruleOf] at answer
  refine ⟨t, e, ?_, ?_, by simp [answer]⟩
  · rw [answer, epilogue_sr, returnFromTrap_sr, pull_ruleState_fst, setFlag_u_pulledStatus]
  · rw [answer, epilogue_pc, returnFromTrap_pc, ruleState_sp, ruleState_read, ruleState_read]

/-! #### Round trips -/

/-- The status that comes back from a pushed copy (R136, R137). -/
theorem pulled_pushed_status (sr : Byte) : ((sr ||| 0x30) &&& 0xCF) ||| 0x20 = (sr &&& 0xEF) ||| 0x20 :=
  sr_ext fun f => by cases f <;> simp [getFlag, Flag.bit]

theorem pla_after_pha (s : State) :
    ∃ t u, exec .pha s = .next t ∧ exec .pla t = .next u ∧ u.a = s.a ∧ u.sp = s.sp := by
  obtain ⟨t, pushed, ⟨stored, -⟩, below, -⟩ := phaPushesTheAccumulator s
  obtain ⟨u, pulled, value, -, above, -⟩ := pla_completes t
  have back : t.sp + 1 = s.sp := by bv_omega
  exact ⟨t, u, pushed, pulled, by rw [value, back, stored], by rw [above, back]⟩

theorem rts_after_jsr (a : Addr) (s : State) : ∃ t u, exec (.jsr a) s = .next t ∧ t.pc = a ∧
    exec .rts t = .next u ∧ u.pc.toNat = (s.pc.toNat + 3) % 65536 ∧ u.sp = s.sp := by
  obtain ⟨t, call, target, below, pushed⟩ := jsr_completes a s
  obtain ⟨u, ret, pc, above⟩ := rts_completes t
  have pulled : (pullWord t).1 = s.pc + 2 := by simp [pullWord_fst, pushed, below]
  refine ⟨t, u, call, target, ret, ?_, by simp [above, below]⟩
  rw [pc, pulled]
  bv_omega

theorem rti_after_brk (s : State) : ∃ t u, exec .brk s = .next t ∧ exec .rti t = .next u ∧
    u.pc.toNat = (s.pc.toNat + 2) % 65536 ∧ u.sp = s.sp ∧ u.sr = (s.sr &&& 0xEF) ||| 0x20 := by
  obtain ⟨t, trap, below, pushed⟩ := brk_completes s
  obtain ⟨u, ret, status, pc, above⟩ := rti_completes t
  have apart : s.sp - 1#8 - 1#8 ≠ s.sp := by bv_omega
  have pulled : u.pc = s.pc + 2 := by simp [pc, pushed, below, apart]
  refine ⟨t, u, trap, ret, ?_, by simp [above, below], ?_⟩
  · rw [pulled]
    bv_omega
  · have copy : t.read (stackAddr (t.sp + 1)) = s.sr ||| 0x30 := by simp [pushed, below]
    rw [status, copy, pulled_pushed_status]

/-- Settles O50, pair by pair: the second of each pair pulls what the first pushed. -/
theorem pushesAndPullsRoundTrip : Obligations.PushesAndPullsRoundTrip := fun s =>
  ⟨pla_after_pha s, fun a => rts_after_jsr a s, rti_after_brk s⟩

end Sys2Proof.Machine

/-! ### Control transfer (45_control.md R124 to R137) -/

namespace Sys2Proof.Machine

/-! #### The branches (R124 to R132) -/

/-- The prologue and the addressing mode leave the flag that a branch tests: it is never U. -/
theorem condOf_ruleState (i : Instr) (op : Byte) (m : Operand) (s : State) :
    condOf i (ruleState op m s) = condOf i s := by
  cases i with
  | bpl | bmi | bvc | bvs | bcc | bcs | bne | beq => simp [condOf, ruleState_flag_kept]
  | _ => rfl

/-- A branch's rule starts with PC at the next instruction (R19, R73). -/
theorem ruleState_rel_pc_toNat (op r : Byte) (s : State) :
    (ruleState op (.rel r) s).pc.toNat = (s.pc.toNat + 2) % 65536 := by
  rw [ruleState_pc, show BitVec.ofNat 16 (Operand.rel r).mode.operandBytes = 1 from rfl]
  bv_omega

/-- The target of a branch is the next instruction plus the signed displacement mod 2^16 (R124). -/
theorem branchTarget_ruleState_toNat (op r : Byte) (s : State) :
    ((branchTarget (ruleState op (.rel r) s)).toNat : Int) = (s.pc.toNat + 2 + r.toInt) % 65536 := by
  have displacement : (ruleState op (.rel r) s).addressRel = sext16 r := rfl
  have signed := sext16_toNat r
  rw [branchTarget, displacement, BitVec.toNat_add, ruleState_rel_pc_toNat]
  omega

/-- Branches take no page-crossing penalty of R168: their count is the base and `bcyc`. -/
theorem cyclesOf_rel {i : Instr} {r : Byte} (rel : i.operand = .rel r) (op : Byte) (s : State) :
    cyclesOf i op s = baseCycles i + branchCycles (condOf i s) (ruleState op (.rel r) s) := by
  simp [cyclesOf, rel, penalty, isIndexedMode, Operand.mode, condOf_ruleState]

/-- `bcyc` compares pages as numbers (R12, R124). -/
theorem branchCycles_eq (cond : Bool) (s : State) : branchCycles cond s =
    if cond then if (branchTarget s).toNat / 256 = s.pc.toNat / 256 then 1 else 2 else 0 := by
  simp [branchCycles, hiByte_bne]

/-- A dispatch of a well-formed term whose rule is R124's with its own condition. -/
theorem branches_of_rule {i : Instr} {r : Byte} (wf : i.WellFormed) (rel : i.operand = .rel r)
    (rule : ∀ q, ruleOf i q = branchIf (condOf i) q) (s : State) : Branches i r (condOf i s) s := by
  obtain ⟨t, e⟩ := exec_completes wf s
  obtain ⟨op, -, answer⟩ := exec_next_iff.mp e
  rw [rule, rel, cyclesOf_rel rel] at answer
  have pc : t.pc = if condOf i s then branchTarget (ruleState op (.rel r) s) else (ruleState op (.rel r) s).pc := by
    rw [answer, epilogue_pc, branchIf_pc, condOf_ruleState]
  refine ⟨t, e, ?_, ?_, by simp [RegistersKept, answer], fun f _ hu => ?_,
    read_of_mem_eq (by simp [answer])⟩
  · cases taken : condOf i s with
    | true => simp [pc, taken, branchTarget_ruleState_toNat]
    | false =>
      rw [pc, taken, if_neg Bool.false_ne_true, ruleState_rel_pc_toNat]
      simp
  · have count : t.cycles = baseCycles i + branchCycles (condOf i s) (ruleState op (.rel r) s) := by
      rw [answer, epilogue_cycles]
    rw [count, branchCycles_eq, pc, ruleState_rel_pc_toNat]
    cases condOf i s <;> rfl
  · rw [answer, epilogue_flag_kept hu, state_flag_eq, branchIf_sr, ← state_flag_eq, ruleState_flag_kept hu]

/-- Settles O51: the eight rules are R124's, each with its own condition. -/
theorem branchesTestOneFlag : Obligations.BranchesTestOneFlag := fun r s =>
  ⟨branches_of_rule (i := .bpl r) rfl rfl (fun _ => rfl) s, branches_of_rule (i := .bmi r) rfl rfl (fun _ => rfl) s,
    branches_of_rule (i := .bvc r) rfl rfl (fun _ => rfl) s, branches_of_rule (i := .bvs r) rfl rfl (fun _ => rfl) s,
    branches_of_rule (i := .bcc r) rfl rfl (fun _ => rfl) s, branches_of_rule (i := .bcs r) rfl rfl (fun _ => rfl) s,
    branches_of_rule (i := .bne r) rfl rfl (fun _ => rfl) s, branches_of_rule (i := .beq r) rfl rfl (fun _ => rfl) s⟩

/-! #### JMP (R133) -/

/-- A well-formed JMP goes to its effective address and changes nothing else that a program can read (R133). -/
theorem jmp_completes {m : Operand} (wf : (Instr.jmp m).WellFormed) (s : State) :
    ∃ t, exec (.jmp m) s = .next t ∧ t.pc = effectiveAddress m s ∧
      RegistersKept s t ∧ FlagsKeptExcept [] s t ∧ MemoryKept s t := by
  obtain ⟨t, e⟩ := exec_completes wf s
  obtain ⟨op, -, answer⟩ := exec_next_iff.mp e
  obtain ⟨a, x, y, sp⟩ := onlyListedRegistersChange _ s t e
  refine ⟨t, e, ?_, ⟨a rfl, x rfl, y rfl, sp rfl⟩, onlyListedFlagsChange _ s t e,
    formsThatStoreNothingKeepMemory _ s t e rfl⟩
  rw [answer, epilogue_pc, ruleOf, state_setPc_pc]
  exact ruleState_addressAbs op m s (mode_ne_of_wellFormed wf (by decide : .imm ∉ Mnemonic.jmp.modes))

/-- Settles O52: the effective address is the operand in ABS, and the word at the pointer in IND. -/
theorem jmpGoesToItsTarget : Obligations.JmpGoesToItsTarget := by
  intro a s
  refine ⟨jmp_completes rfl s, ?_⟩
  obtain ⟨t, e, target, frame⟩ := jmp_completes (m := .ind a) rfl s
  refine ⟨t, e, ?_, frame⟩
  rw [target, effectiveAddress, indirectTarget, readWord_toNat, nextInPage_toNat]

/-! #### JSR, RTS, BRK, RTI (R134 to R137) -/

/-- A return address is the instruction's own plus 2, mod 2^16 (R134, R136). -/
theorem addr_add_two_toNat (w : Addr) : (w + 2).toNat = (w.toNat + 2) % 65536 := BitVec.toNat_add w 2

theorem hiByte_add_two_toNat (w : Addr) : (hiByte (w + 2)).toNat = (w.toNat + 2) % 65536 / 256 := by
  rw [hiByte_toNat, addr_add_two_toNat]

theorem loByte_add_two_toNat (w : Addr) : (loByte (w + 2)).toNat = (w.toNat + 2) % 256 := by
  rw [loByte_toNat, addr_add_two_toNat]
  omega

theorem byte_sub_one_sub_one (v : Byte) : v - 1 - 1 = v - 2 := by bv_omega

theorem byte_add_one_add_one (v : Byte) : v + 1 + 1 = v + 2 := BitVec.add_assoc v 1 1

theorem byte_add_two_add_one (v : Byte) : v + 2 + 1 = v + 3 := BitVec.add_assoc v 2 1

/-- A pushed word lies high byte first, and no other byte changes (R49). -/
theorem pushWord_read_high (w : Addr) (s : State) : (pushWord w s).read (stackAddr s.sp) = hiByte w := by
  simp

theorem pushWord_read_low (w : Addr) (s : State) : (pushWord w s).read (stackAddr (s.sp - 1)) = loByte w := by
  simp

theorem pushWord_read_other {s : State} {u : Addr} (high : u ≠ stackAddr s.sp) (low : u ≠ stackAddr (s.sp - 1))
    (w : Addr) : (pushWord w s).read u = s.read u := by
  rw [pushWord_read, if_neg low.symm, if_neg high.symm]

/-- A byte pushed after a word lies below it, and the word's own bytes stay (R46, R49, R136). -/
theorem push_pushWord_read (v : Byte) (w u : Addr) (s : State) : (push v (pushWord w s)).read u =
    if stackAddr (s.sp - 2) = u then v else (pushWord w s).read u := by
  rw [push_read, pushWord_sp, byte_sub_one_sub_one]

/-- Settles O53: what `jsr_completes` and `rts_completes` say of PC, SP and the stack, as numbers. -/
theorem jsrAndRtsTransferControl : Obligations.JsrAndRtsTransferControl := by
  intro a s
  constructor
  · obtain ⟨t, e, target, sp, pushed⟩ := jsr_completes a s
    obtain ⟨regA, regX, regY, -⟩ := onlyListedRegistersChange _ s t e
    refine ⟨t, e, target, ?_, ?_, fun b high low => ?_, ?_, regA rfl, regX rfl, regY rfl,
      onlyListedFlagsChange _ s t e⟩
    · rw [pushed, pushWord_read_high, hiByte_add_two_toNat]
    · rw [pushed, pushWord_read_low, loByte_add_two_toNat]
    · rw [pushed, pushWord_read_other high low]
    · rw [sp]
      bv_omega
  · obtain ⟨t, e, pc, sp⟩ := rts_completes s
    obtain ⟨regA, regX, regY, -⟩ := onlyListedRegistersChange _ s t e
    refine ⟨t, e, ?_, ?_, regA rfl, regX rfl, regY rfl, onlyListedFlagsChange _ s t e,
      formsThatStoreNothingKeepMemory _ s t e rfl⟩
    · rw [pc, pullWord_fst, BitVec.toNat_add, word_toNat, byte_add_one_add_one]
      rfl
    · rw [sp]
      bv_omega

/-- BRK goes through its vector, in memory as the dispatch finds it (R136, R150). -/
theorem exec_brk_pc {s t : State} (e : exec .brk s = .next t) :
    t.pc = s.readWord Config.brkVectorLo Config.brkVectorHi := by
  obtain ⟨op, -, answer⟩ := exec_next_iff.mp e
  rw [answer, epilogue_pc, ruleOf, enterTrap_pc]
  simp [State.readWord]

/-- BRK masks interrupts (R136, D10). -/
theorem exec_brk_flag_i {s t : State} (e : exec .brk s = .next t) : t.flag .i = true := by
  obtain ⟨op, -, answer⟩ := exec_next_iff.mp e
  rw [answer, epilogue_flag_kept (by decide), ruleOf, state_flag_eq, enterTrap_sr, getFlag_setFlag_same]

/-- Settles O54: the status is pushed below both bytes of the return address, so it overwrites neither, and SP's wrap
brings no two of the three together. -/
theorem brkEntersTheTrap : Obligations.BrkEntersTheTrap := by
  intro s
  obtain ⟨t, e, sp, pushed⟩ := brk_completes s
  obtain ⟨regA, regX, regY, -⟩ := onlyListedRegistersChange _ s t e
  have belowHigh : stackAddr (s.sp - 2) ≠ stackAddr s.sp := (stackAddr_inj _ _).not.mpr (by bv_omega)
  have belowLow : stackAddr (s.sp - 2) ≠ stackAddr (s.sp - 1) := (stackAddr_inj _ _).not.mpr (by bv_omega)
  refine ⟨t, e, ?_, ?_, ?_, fun b high low status => ?_, exec_brk_flag_i e, ?_, ?_, regA rfl, regX rfl, regY rfl,
    onlyListedFlagsChange _ s t e⟩
  · rw [pushed, push_pushWord_read, if_neg belowHigh, pushWord_read_high, hiByte_add_two_toNat]
  · rw [pushed, push_pushWord_read, if_neg belowLow, pushWord_read_low, loByte_add_two_toNat]
  · rw [pushed, push_pushWord_read, if_pos rfl]
  · rw [pushed, push_pushWord_read, if_neg status.symm, pushWord_read_other high low]
  · rw [exec_brk_pc e, readWord_toNat]
    rfl
  · rw [sp]
    bv_omega

/-- Settles O55: what `rti_completes` says of SR, PC and SP, as numbers. -/
theorem rtiReturnsFromTheTrap : Obligations.RtiReturnsFromTheTrap := by
  intro s
  obtain ⟨t, e, status, pc, sp⟩ := rti_completes s
  obtain ⟨regA, regX, regY, -⟩ := onlyListedRegistersChange _ s t e
  refine ⟨t, e, status, ?_, ?_, regA rfl, regX rfl, regY rfl, formsThatStoreNothingKeepMemory _ s t e rfl⟩
  · rw [pc, word_toNat, byte_add_one_add_one s.sp, byte_add_two_add_one]
  · rw [sp]
    bv_omega

end Sys2Proof.Machine

/-! ### Flags, NOP and the illegal opcodes (46_flags_nop.md R138 to R146) -/

namespace Sys2Proof.Machine

/-- In IMP there is neither a page-crossing penalty nor a branch: the count is the base count (R167, R168). -/
theorem cyclesOf_imp {i : Instr} (imp : i.operand = .imp) (op : Byte) (s : State) : cyclesOf i op s = baseCycles i := by
  have noBranch : condOf i (ruleState op .imp s) = false := condOf_of_mode_ne_rel (by rw [imp]; decide) _
  simp [cyclesOf, imp, noBranch, branchCycles, penalty, isIndexedMode, Operand.mode]

/-- A dispatch in IMP of a rule that writes SR alone, if anything: `effect` is what holds of the state it answers. -/
theorem setsOnly_of_rule {i : Instr} {status : Byte → Byte} {flags : State → Prop} {s : State} (wf : i.WellFormed)
    (imp : i.operand = .imp) (rule : ∀ q, ruleOf i q = q.setSr (status q.sr))
    (effect : ∀ op, flags (epilogue (baseCycles i) (ruleOf i (ruleState op .imp s)))) :
    SetsOnly i flags (flagsWritten i.mnemonic) s := by
  obtain ⟨t, e⟩ := exec_completes wf s
  obtain ⟨op, -, answer⟩ := exec_next_iff.mp e
  rw [imp, cyclesOf_imp imp] at answer
  refine ⟨t, e, answer ▸ effect op, ?_, ?_, onlyListedFlagsChange i s t e, ?_⟩
  · simp [answer, rule, Operand.mode, Mode.operandBytes]
  · simp [RegistersKept, answer, rule]
  · exact read_of_mem_eq (by simp [answer, rule])

/-! #### CLC, SEC, CLI, SEI, CLV, CLD, SED (R138 to R144) -/

/-- The epilogue after the rule writes U only, so the flag that the rule wrote stays as written. -/
theorem setsOnly_of_setFlag {i : Instr} {f : Flag} {b : Bool} (hu : f ≠ .u) (wf : i.WellFormed)
    (imp : i.operand = .imp) (rule : ∀ q, ruleOf i q = q.setFlag f b) (s : State) :
    SetsOnly i (fun t => t.flag f = b) (flagsWritten i.mnemonic) s := by
  refine setsOnly_of_rule (status := setFlag f b) wf imp rule fun op => ?_
  rw [epilogue_flag_kept hu, rule]
  exact getFlag_setFlag_same f b _

/-- Settles O56: the seven rules are one, with the flag and its value as parameters. -/
theorem flagInstructionsWriteOneFlag : Obligations.FlagInstructionsWriteOneFlag := fun s =>
  ⟨setsOnly_of_setFlag (i := .clc) (by decide) rfl rfl (fun _ => rfl) s,
    setsOnly_of_setFlag (i := .sec) (by decide) rfl rfl (fun _ => rfl) s,
    setsOnly_of_setFlag (i := .cli) (by decide) rfl rfl (fun _ => rfl) s,
    setsOnly_of_setFlag (i := .sei) (by decide) rfl rfl (fun _ => rfl) s,
    setsOnly_of_setFlag (i := .clv) (by decide) rfl rfl (fun _ => rfl) s,
    setsOnly_of_setFlag (i := .cld) (by decide) rfl rfl (fun _ => rfl) s,
    setsOnly_of_setFlag (i := .sed) (by decide) rfl rfl (fun _ => rfl) s⟩

/-! #### NOP and the illegal opcodes (R145, R146) -/

/-- With no rule of its own an instruction shows what the dispatch in IMP itself does: U from the epilogue, `fetched`
from the addressing mode (R68, R71). -/
theorem setsOnly_of_noRule {i : Instr} (wf : i.WellFormed) (imp : i.operand = .imp) (rule : ∀ q, ruleOf i q = q)
    (s : State) : SetsOnly i (fun t => t.flag .u = true ∧ t.fetched = s.a ∧ t.addressAbs = s.addressAbs ∧
      t.addressRel = s.addressRel ∧ t.cycles = baseCycles i) (flagsWritten i.mnemonic) s := by
  refine setsOnly_of_rule (status := id) wf imp rule fun op => ?_
  rw [rule, ruleState, resolve_imp]
  exact ⟨getFlag_setFlag_same .u true _, rfl, rfl, rfl, rfl⟩

/-- Settles O57: NOP and the illegal opcodes have no rule of their own. -/
theorem nopAndIllegalOpcodesDoNothing : Obligations.NopAndIllegalOpcodesDoNothing := by
  rintro i s (rfl | ⟨op, illegal, rfl⟩)
  · exact setsOnly_of_noRule (i := .nop) rfl rfl (fun _ => rfl) s
  · have wf : (Instr.xxx op).WellFormed := wellFormed_of_opcodeByte (opcodeByte_xxx.mpr ⟨illegal, rfl⟩)
    exact setsOnly_of_noRule wf rfl (fun _ => rfl) s

end Sys2Proof.Machine

/-! ### Exceptions and the debug surface (60_exceptions.md R147 to R158) -/

namespace Sys2Proof.Machine

/-! #### Progress (R147) -/

/-- The instruction at PC is a row of the opcode table, whatever bytes stand there (R66). -/
theorem fetchInstr_wellFormed (s : State) : (fetchInstr s).WellFormed :=
  wellFormed_of_opcodeByte (opcodeByte_decodeBytes _ _ _)

/-- A Busy tick is the decrement alone (R165). -/
theorem step_busy {s : State} (busy : s.cycles ≠ 0) : step s = .next (countDown s) :=
  if_neg busy

/-- An Idle tick is the dispatch of the instruction at PC and the decrement of the count that it sets (R165). -/
theorem step_idle {s t : State} (idle : s.cycles = 0) (dispatched : exec (fetchInstr s) s = .next t) :
    step s = .next (countDown t) := by
  rw [step, if_pos idle, dispatched, finishTick]

/-- Settles O6: a Busy tick counts down, and an Idle one dispatches a well-formed instruction, which completes. -/
theorem everyTickAnswersNext : Obligations.EveryTickAnswersNext := by
  intro s
  by_cases idle : s.cycles = 0
  · obtain ⟨t, dispatched⟩ := exec_completes (fetchInstr_wellFormed s) s
    exact ⟨countDown t, step_idle idle dispatched⟩
  · exact ⟨countDown s, step_busy idle⟩

/-! #### The register dump (R158) -/

/-- Every byte takes two characters, so two texts that begin with a byte's digits agree byte and rest apart. -/
theorem hexByte_append_inj {v w : Byte} {cs ds : List Char} :
    hexByte v ++ cs = hexByte w ++ ds ↔ v = w ∧ cs = ds := by
  constructor
  · intro h
    obtain ⟨digits, rest⟩ := List.append_inj h rfl
    exact ⟨hexByte_inj digits, rest⟩
  · rintro ⟨rfl, rfl⟩
    rfl

/-- An address is determined by its two bytes (R8). -/
theorem hiByte_loByte_inj {u v : Addr} : hiByte u = hiByte v ∧ loByte u = loByte v ↔ u = v := by
  constructor
  · rintro ⟨high, low⟩
    rw [← word_halves u, high, low, word_halves]
  · rintro rfl
    exact ⟨rfl, rfl⟩

theorem hexByte_eq_iff {v w : Byte} : hexByte v = hexByte w ↔ v = w :=
  ⟨hexByte_inj, congrArg hexByte⟩

/-- The labels are fixed and every value has a fixed width, so two dumps agree value by value. -/
theorem dumpChars_eq_iff {p q : DebugPort} : p.dumpChars = q.dumpChars ↔
    p.a = q.a ∧ p.x = q.x ∧ p.y = q.y ∧ p.sp = q.sp ∧ p.sr = q.sr ∧ p.pc = q.pc := by
  simp only [DebugPort.dumpChars, List.append_assoc, List.append_cancel_left_eq, hexByte_append_inj,
    hexByte_eq_iff, hiByte_loByte_inj]

/-- Settles O60: the text determines its characters, and these determine the debug port, which is the six registers. -/
theorem dumpShowsExactlyTheRegisters : Obligations.DumpShowsExactlyTheRegisters := fun _ _ =>
  String.ofList_inj.trans dumpChars_eq_iff

end Sys2Proof.Machine

/-! ### Reset, ticks and host actions (70_reset_and_hazards.md R160 to R172) -/

namespace Sys2Proof.Machine

/-! #### Counting down (R165, R166) -/

/-- As many ticks as `cycles` allows count it down and do nothing else (R165). -/
theorem runTicks_of_le_cycles {k : Nat} {s : State} (h : k ≤ s.cycles) :
    runTicks k s = .next { s with cycles := s.cycles - k } := by
  induction k generalizing s with
  | zero => rfl
  | succ k ih =>
    have busy : s.cycles ≠ 0 := by omega
    have rest : k ≤ (countDown s).cycles := by rw [countDown_cycles]; omega
    rw [runTicks, step_busy busy, Result.andThen, ih rest, countDown_cycles, Nat.sub_sub, Nat.add_comm 1 k]
    rfl

/-- The ticks that `cycles` asks for leave the engine Idle (R33, R166). -/
theorem runTicks_cycles (s : State) : runTicks s.cycles s = .next { s with cycles := 0 } := by
  rw [runTicks_of_le_cycles (Nat.le_refl _), Nat.sub_self]

/-- Settles O8: the dispatch tick leaves `cycles` one below the count, which is at least 1, and the rest counts down. -/
theorem instructionTakesItsCycles : Obligations.InstructionTakesItsCycles := by
  intro s t idle dispatched
  have dispatchTick : step s = .next (countDown t) := step_idle idle dispatched
  have rest : runTicks (t.cycles - 1) (countDown t) = .next { t with cycles := 0 } := runTicks_cycles (countDown t)
  obtain ⟨atLeastOne, -⟩ := dispatchCyclesInRange (fetchInstr s) s t dispatched
  constructor
  · rw [← Nat.sub_add_cancel atLeastOne, runTicks, dispatchTick]
    exact rest
  · rw [runInstruction, dispatchTick]
    exact rest

/-- Settles O59: a reset sets `cycles` to the latency. -/
theorem firstDispatchFollowsTheLatency : Obligations.FirstDispatchFollowsTheLatency :=
  fun _ _ _ within => runTicks_of_le_cycles within

/-! #### The page-crossing penalty (R168) -/

/-- The instructions of the penalty class, as R168 lists them. -/
theorem takesPenalty_iff (n : Mnemonic) :
    takesPenalty n = true ↔ n ∈ [.adc, .and, .cmp, .eor, .lda, .ldx, .ldy, .ora, .sbc] := by
  cases n <;> decide

theorem isIndexedMode_iff (m : Mode) : isIndexedMode m = true ↔ m ∈ [.abx, .aby, .izy] := by
  cases m <;> decide

/-- In an indexed mode the signal of R83 compares the page numbers of the address and its base. -/
theorem crossed_iff_of_isIndexedMode {m : Operand} (h : isIndexedMode m.mode = true) (s : State) :
    crossed m s = true ↔ (effectiveAddress m s).toNat / 256 ≠ (baseAddress m s).toNat / 256 := by
  cases m with
  | abx a | aby a | izy p => rw [crossed, hiByte_bne, decide_eq_true_iff]
  | _ => cases h

/-- An instruction that is no branch takes its base count and the penalty (R167). -/
theorem cyclesOf_of_mode_ne_rel {i : Instr} (h : i.operand.mode ≠ .rel) (op : Byte) (s : State) :
    cyclesOf i op s = baseCycles i + penalty i.mnemonic i.operand.mode (crossed i.operand s) := by
  simp [cyclesOf, condOf_of_mode_ne_rel h, branchCycles]

/-- Settles O10: the three parts of the penalty's condition, one by one. -/
theorem pageCrossingCostsOneCycle : Obligations.PageCrossingCostsOneCycle := by
  intro i s t e noBranch
  obtain ⟨op, -, rfl⟩ := exec_next_iff.mp e
  rw [epilogue_cycles, cyclesOf_of_mode_ne_rel noBranch, penalty]
  refine congrArg (baseCycles i + ·) (if_congr ?_ rfl rfl)
  rw [Bool.and_eq_true, Bool.and_eq_true, takesPenalty_iff, and_assoc, isIndexedMode_iff]
  refine and_congr_right fun _ => and_congr_right fun indexed => ?_
  exact crossed_iff_of_isIndexedMode ((isIndexedMode_iff _).mpr indexed) s

/-! #### Host actions (R52, R160, R171) -/

/-- Both latencies are in the range of `cycles` (R5, R32). -/
theorem latency_ticks (l : ResetLatency) : l.ticks = 7 ∨ l.ticks = 8 := by
  cases l with
  | seven => exact .inl rfl
  | eight => exact .inr rfl

/-- A reset keeps memory, sets `cycles` to the latency and clears SR (R160, R161). -/
theorem hostReset_keeps_inv {s : State} (h : s.Inv) (p : ResetParams) : (hostReset p s).Inv where
  memoryCanonical := h.memoryCanonical
  cyclesInRange := by
    have latency := latency_ticks p.latency
    change p.latency.ticks ≤ 8
    omega
  breakClear := (by decide : getFlag .b 0x00 = false)

/-- A host write changes memory only, as the bus does (R52). -/
theorem hostWrite_keeps_inv {s : State} (h : s.Inv) (a : Nat) (v : Byte) : (hostWrite a v s).Inv :=
  ⟨wf_write h.memoryCanonical a v, h.cyclesInRange, h.breakClear⟩

/-- Each host action answers a next state and keeps the invariant. -/
theorem hostAct_keeps_inv {s : State} (h : s.Inv) (act : HostAction) : ∃ t, hostAct act s = .next t ∧ t.Inv := by
  cases act with
  | tick =>
    obtain ⟨t, ticked⟩ := everyTickAnswersNext s
    exact ⟨t, ticked, stepKeepsInvariant s t h ticked⟩
  | reset p => exact ⟨_, rfl, hostReset_keeps_inv h p⟩
  | write a v => exact ⟨_, rfl, hostWrite_keeps_inv h a v⟩

/-- Settles O13, by induction on the list of actions. -/
theorem hostActionsKeepInvariant : Obligations.HostActionsKeepInvariant := by
  intro acts
  induction acts with
  | nil => exact fun s h => ⟨s, rfl, h⟩
  | cons act rest ih =>
    intro s h
    obtain ⟨u, acted, hu⟩ := hostAct_keeps_inv h act
    rw [hostRun, acted]
    exact ih u hu

/-! #### The decoded instruction (R57, R165) -/

/-- Three bytes always decode; those that the opcode's mode does not consume are left (R57, R66). -/
theorem decode_three_bytes (op b1 b2 : Byte) :
    decode [op, b1, b2] = .ok (decodeBytes op b1 b2, [b1, b2].drop (opTable op).2.operandBytes) := by
  have decoded := decode_take_append op b1 b2 ([b1, b2].drop (opTable op).2.operandBytes)
  rwa [List.take_append_drop] at decoded

/-- Settles O5: what the bytes at PC decode to is the instruction that an Idle tick fetches. -/
theorem tickRunsTheDecodedInstruction : Obligations.TickRunsTheDecodedInstruction := by
  refine ⟨fun s i rest idle decoded => ?_, fun s busy => ⟨step_busy busy, if_neg busy⟩⟩
  have fetched : fetchInstr s = i := by
    rw [decode_three_bytes] at decoded
    exact (Prod.mk.inj (Except.ok.inj decoded)).1
  subst fetched
  exact ⟨fetchInstr_wellFormed s, fun t dispatched => step_idle idle dispatched⟩

/-! #### Reset (R160 to R162) -/

/-- Settles O58: PC is the little-endian word at the vector, whose bytes are 0 in a memory that lists nothing. -/
theorem resetLeavesTheStatedState : Obligations.ResetLeavesTheStatedState := by
  constructor
  · intro p s
    exact ⟨readWord_toNat s Config.resetVectorLo Config.resetVectorHi, rfl, rfl, rfl, rfl, rfl, rfl, rfl, rfl,
      latency_ticks p.latency, rfl, rfl⟩
  · intro s unlisted
    simp only [hostReset, State.readWord, State.read, unlisted]
    rfl

end Sys2Proof.Machine
